-- ==== Sys2Proof/Word.lean ====
section
/-! DEFINITION. Word.lean: the bit widths the spec names (R7, R9, R111). -/

namespace Sys2Proof

/-- A byte: a memory cell, a general register, a timer, the immediate NN (R7). -/
abbrev Byte := BitVec 8

/-- A 16-bit word: an instruction, the program counter, the index register, a return address (R7, R110). -/
abbrev Word := BitVec 16

/-- A 4-bit register number, naming V0 to VF directly (R113). -/
abbrev Reg := BitVec 4

/-- The 4-bit immediate N (R111). -/
abbrev Nibble := BitVec 4

/-- The 12-bit immediate NNN (R111). -/
abbrev Addr12 := BitVec 12

end Sys2Proof
end

