-- ==== Sys2Proof/Syntax.lean ====
section
/-! DEFINITION. Syntax.lean: the 34 instructions, one constructor for each row of R114. -/

namespace Sys2Proof

/-- The instructions of R114, in the table's order. A field's width is its width in the word (R111), so every term is
an encodable instruction (R113). -/
inductive Instr where
  /-- 00E0 CLS (R300). -/
  | cls
  /-- 00EE RET (R203). -/
  | ret
  /-- 1NNN JP NNN (R204). -/
  | jp (nnn : Addr12)
  /-- 2NNN CALL NNN (R205). -/
  | call (nnn : Addr12)
  /-- 3XNN SE VX, NN (R206). -/
  | seImm (x : Reg) (nn : Byte)
  /-- 4XNN SNE VX, NN (R207). -/
  | sneImm (x : Reg) (nn : Byte)
  /-- 5XY0 SE VX, VY (R208). -/
  | seReg (x y : Reg)
  /-- 6XNN LD VX, NN (R232). -/
  | ldImm (x : Reg) (nn : Byte)
  /-- 7XNN ADD VX, NN (R233). -/
  | addImm (x : Reg) (nn : Byte)
  /-- 8XY0 LD VX, VY (R234). -/
  | ldReg (x y : Reg)
  /-- 8XY1 OR VX, VY (R235). -/
  | orReg (x y : Reg)
  /-- 8XY2 AND VX, VY (R236). -/
  | andReg (x y : Reg)
  /-- 8XY3 XOR VX, VY (R237). -/
  | xorReg (x y : Reg)
  /-- 8XY4 ADD VX, VY (R238). -/
  | addReg (x y : Reg)
  /-- 8XY5 SUB VX, VY (R239). -/
  | subReg (x y : Reg)
  /-- 8XY6 SHR VX, VY (R240). -/
  | shrReg (x y : Reg)
  /-- 8XY7 SUBN VX, VY (R241). -/
  | subnReg (x y : Reg)
  /-- 8XYE SHL VX, VY (R242). -/
  | shlReg (x y : Reg)
  /-- 9XY0 SNE VX, VY (R209). -/
  | sneReg (x y : Reg)
  /-- ANNN LD I, NNN (R271). -/
  | ldI (nnn : Addr12)
  /-- BNNN JP V0, NNN (R210). -/
  | jpV0 (nnn : Addr12)
  /-- CXNN RND VX, NN (R243). -/
  | rnd (x : Reg) (nn : Byte)
  /-- DXYN DRW VX, VY, N (R301). -/
  | drw (x y : Reg) (n : Nibble)
  /-- EX9E SKP VX (R303). -/
  | skp (x : Reg)
  /-- EXA1 SKNP VX (R304). -/
  | sknp (x : Reg)
  /-- FX07 LD VX, DT (R305). -/
  | ldVDT (x : Reg)
  /-- FX0A LD VX, K (R306). -/
  | ldVK (x : Reg)
  /-- FX15 LD DT, VX (R307). -/
  | ldDTV (x : Reg)
  /-- FX18 LD ST, VX (R308). -/
  | ldSTV (x : Reg)
  /-- FX1E ADD I, VX (R272). -/
  | addIV (x : Reg)
  /-- FX29 LD F, VX (R273). -/
  | ldFV (x : Reg)
  /-- FX33 LD B, VX (R274). -/
  | ldBV (x : Reg)
  /-- FX55 LD [I], VX (R275). -/
  | storeRegs (x : Reg)
  /-- FX65 LD VX, [I] (R276). -/
  | loadRegs (x : Reg)
  deriving DecidableEq, Repr

end Sys2Proof
end

