-- ==== Sys2Proof/Decode.lean ====
section
/-! DEFINITION. Decode.lean: the decoder (R111, R114, R115, R153), total on every list of bytes and rejecting by name,
and the encoder, written from the same rows. -/

namespace Sys2Proof

/-- Why the decoder gives no instruction. -/
inductive Reject where
  /-- Fewer than the two bytes of an instruction are left (R110). -/
  | truncated
  /-- The word matches no row of R114 (R115). The machine goes on (R156). -/
  | unknownWord (w : Word)
  deriving DecidableEq, Repr

/-- The field class, w[15:12] (R111). -/
def fieldClass (w : Word) : Nibble := w.extractLsb' 12 4

/-- The field X, w[11:8] (R111). -/
def fieldX (w : Word) : Reg := w.extractLsb' 8 4

/-- The field Y, w[7:4] (R111). -/
def fieldY (w : Word) : Reg := w.extractLsb' 4 4

/-- The field N, w[3:0] (R111). -/
def fieldN (w : Word) : Nibble := w.extractLsb' 0 4

/-- The field NN, w[7:0] (R111). -/
def fieldNN (w : Word) : Byte := w.extractLsb' 0 8

/-- The field NNN, w[11:0] (R111). -/
def fieldNNN (w : Word) : Addr12 := w.extractLsb' 0 12

/-- Class 0: only the two exact words (R115). -/
def decodeClass0 (w : Word) : Except Reject Instr :=
  if w = 0x00E0 then .ok .cls else if w = 0x00EE then .ok .ret else .error (.unknownWord w)

/-- Class 8: N is 0 to 7 or E (R115). -/
def decodeClass8 (w : Word) : Except Reject Instr :=
  match (fieldN w).toNat with
  | 0x0 => .ok (.ldReg (fieldX w) (fieldY w))
  | 0x1 => .ok (.orReg (fieldX w) (fieldY w))
  | 0x2 => .ok (.andReg (fieldX w) (fieldY w))
  | 0x3 => .ok (.xorReg (fieldX w) (fieldY w))
  | 0x4 => .ok (.addReg (fieldX w) (fieldY w))
  | 0x5 => .ok (.subReg (fieldX w) (fieldY w))
  | 0x6 => .ok (.shrReg (fieldX w) (fieldY w))
  | 0x7 => .ok (.subnReg (fieldX w) (fieldY w))
  | 0xE => .ok (.shlReg (fieldX w) (fieldY w))
  | _ => .error (.unknownWord w)

/-- Class E: NN is 9E or A1 (R115). -/
def decodeClassE (w : Word) : Except Reject Instr :=
  match (fieldNN w).toNat with
  | 0x9E => .ok (.skp (fieldX w))
  | 0xA1 => .ok (.sknp (fieldX w))
  | _ => .error (.unknownWord w)

/-- Class F: NN is 07, 0A, 15, 18, 1E, 29, 33, 55 or 65 (R115). -/
def decodeClassF (w : Word) : Except Reject Instr :=
  match (fieldNN w).toNat with
  | 0x07 => .ok (.ldVDT (fieldX w))
  | 0x0A => .ok (.ldVK (fieldX w))
  | 0x15 => .ok (.ldDTV (fieldX w))
  | 0x18 => .ok (.ldSTV (fieldX w))
  | 0x1E => .ok (.addIV (fieldX w))
  | 0x29 => .ok (.ldFV (fieldX w))
  | 0x33 => .ok (.ldBV (fieldX w))
  | 0x55 => .ok (.storeRegs (fieldX w))
  | 0x65 => .ok (.loadRegs (fieldX w))
  | _ => .error (.unknownWord w)

/-- The decoder on a word (R153, R154, R115). The last arm is class F, the sixteenth value of the 4-bit class. -/
def decodeWord (w : Word) : Except Reject Instr :=
  match (fieldClass w).toNat with
  | 0x0 => decodeClass0 w
  | 0x1 => .ok (.jp (fieldNNN w))
  | 0x2 => .ok (.call (fieldNNN w))
  | 0x3 => .ok (.seImm (fieldX w) (fieldNN w))
  | 0x4 => .ok (.sneImm (fieldX w) (fieldNN w))
  | 0x5 => if fieldN w = 0 then .ok (.seReg (fieldX w) (fieldY w)) else .error (.unknownWord w)
  | 0x6 => .ok (.ldImm (fieldX w) (fieldNN w))
  | 0x7 => .ok (.addImm (fieldX w) (fieldNN w))
  | 0x8 => decodeClass8 w
  | 0x9 => if fieldN w = 0 then .ok (.sneReg (fieldX w) (fieldY w)) else .error (.unknownWord w)
  | 0xA => .ok (.ldI (fieldNNN w))
  | 0xB => .ok (.jpV0 (fieldNNN w))
  | 0xC => .ok (.rnd (fieldX w) (fieldNN w))
  | 0xD => .ok (.drw (fieldX w) (fieldY w) (fieldN w))
  | 0xE => decodeClassE w
  | _ => decodeClassF w

/-- The word of two bytes, the byte at the lower address in bits 15:8 (R85). -/
def wordOfBytes (hi lo : Byte) : Word := hi ++ lo

/-- The two bytes of a word as memory holds them, big-endian (R85, R110). -/
def bytesOfWord (w : Word) : List Byte := [w.extractLsb' 8 8, w.extractLsb' 0 8]

/-- The decoder on bytes: one instruction is always two bytes (R110); it gives the instruction and the rest. -/
def decodeBytes : List Byte → Except Reject (Instr × List Byte)
  | hi :: lo :: rest => (decodeWord (wordOfBytes hi lo)).map fun i => (i, rest)
  | _ => .error .truncated

/-- A word of class, X and NN (R111). -/
def packXNN (c : Nibble) (x : Reg) (nn : Byte) : Word := c ++ x ++ nn

/-- A word of class, X, Y and N (R111). -/
def packXYN (c : Nibble) (x y : Reg) (n : Nibble) : Word := c ++ x ++ y ++ n

/-- A word of class and NNN (R111). -/
def packNNN (c : Nibble) (nnn : Addr12) : Word := c ++ nnn

/-- The encoder: each row's match with the fields substituted (R114, R117). -/
def encode : Instr → Word
  | .cls => 0x00E0
  | .ret => 0x00EE
  | .jp nnn => packNNN 0x1 nnn
  | .call nnn => packNNN 0x2 nnn
  | .seImm x nn => packXNN 0x3 x nn
  | .sneImm x nn => packXNN 0x4 x nn
  | .seReg x y => packXYN 0x5 x y 0x0
  | .ldImm x nn => packXNN 0x6 x nn
  | .addImm x nn => packXNN 0x7 x nn
  | .ldReg x y => packXYN 0x8 x y 0x0
  | .orReg x y => packXYN 0x8 x y 0x1
  | .andReg x y => packXYN 0x8 x y 0x2
  | .xorReg x y => packXYN 0x8 x y 0x3
  | .addReg x y => packXYN 0x8 x y 0x4
  | .subReg x y => packXYN 0x8 x y 0x5
  | .shrReg x y => packXYN 0x8 x y 0x6
  | .subnReg x y => packXYN 0x8 x y 0x7
  | .shlReg x y => packXYN 0x8 x y 0xE
  | .sneReg x y => packXYN 0x9 x y 0x0
  | .ldI nnn => packNNN 0xA nnn
  | .jpV0 nnn => packNNN 0xB nnn
  | .rnd x nn => packXNN 0xC x nn
  | .drw x y n => packXYN 0xD x y n
  | .skp x => packXNN 0xE x 0x9E
  | .sknp x => packXNN 0xE x 0xA1
  | .ldVDT x => packXNN 0xF x 0x07
  | .ldVK x => packXNN 0xF x 0x0A
  | .ldDTV x => packXNN 0xF x 0x15
  | .ldSTV x => packXNN 0xF x 0x18
  | .addIV x => packXNN 0xF x 0x1E
  | .ldFV x => packXNN 0xF x 0x29
  | .ldBV x => packXNN 0xF x 0x33
  | .storeRegs x => packXNN 0xF x 0x55
  | .loadRegs x => packXNN 0xF x 0x65

/-- The instruction's two bytes in memory (R85, R110). -/
def encodeBytes (i : Instr) : List Byte := bytesOfWord (encode i)

/-- The word an opcode-table row's bits stand for: an instruction is one 16-bit word, bit 0 its least significant bit;
bits from `nbits` on are zero. -/
def tableWord (nbits w : Nat) : Word := BitVec.ofNat 16 (w % 2 ^ nbits)

/-- The instruction the decoder reads from the bits `w` of an opcode-table row, laid out in memory order. -/
def decodeTableWord (nbits w : Nat) : Option Instr :=
  match decodeBytes (bytesOfWord (tableWord nbits w)) with
  | .ok (i, _) => some i
  | .error _ => none

end Sys2Proof
end

