-- ==== Sys2Proof/Config.lean ====
section
/-! DEFINITION. Config.lean: the parameters of R7 and R8: the fixed sizes, the two parameters a model is given
(STACK_LIMIT and FONT), and the free random byte. -/

namespace Sys2Proof

/-- The font parameter: 16 glyphs of 5 bytes, digit d at 5*d (R8, R39). -/
abbrev Font := Vector Byte 80

/-- The open parameters of R8 that a machine is constructed with. They stand in State, so that every statement about
all states holds for every value of them (log 1, DESIGN CHOICE). -/
structure Config where
  /-- STACK_LIMIT, the greatest call-stack depth; `none` is unbounded (R8, R201). -/
  stackLimit : Option Nat
  /-- FONT, the bytes construction places at 0x000 to 0x04F (R8, R39). -/
  font : Font
  deriving DecidableEq, Repr

/-- The random byte that draw number n gets: a FREE VALUE (R8, R52: "an input of every step, with no law"; log 4). -/
opaque Config.freeRnd : Nat → Byte

/-- The size of memory in bytes (R7). -/
def memSize : Nat := 4096

/-- Where a program is loaded and entered (R7, R501). -/
def programBase : Nat := 0x200

/-- The longest program image in bytes: 4096 − 0x200 = 3584 (R7, R415). -/
def maxProgramSize : Nat := memSize - programBase

end Sys2Proof
end

