-- ==== Sys2Proof/Machine/State.lean ====
section
/-! DEFINITION. Machine/State.lean: the state of R30 as plain data, the outcomes of a step (R51), the faults (R400), and
the state after construction (R500). -/

namespace Sys2Proof.Machine

/-- The lifecycle phase (R41). -/
inductive Phase where
  | constructed
  | loaded
  deriving DecidableEq, Repr

/-- The closed list of faults with the info each records (R400). A fault is TAKEN, as R403 describes its entry: the step
answers a next state whose halt latch holds the record. So no step answers `Host.Outcome.fault` (log 5). -/
inductive Fault where
  /-- Code 1: fetch at pc > 4094. Raised by the fetch of every step (R152). Safe: the spec's own fault. -/
  | fetchOutOfBounds (pc : Word)
  /-- Code 2: a data range reaches past 4095; addr is the first address above 4095 in it. Raised by DXYN with N > 0, FX33,
  FX55 and FX65 (R87, R270). Safe: the spec's own fault. -/
  | dataOutOfBounds (addr : Nat)
  /-- Code 3: RET with an empty stack. Raised by 00EE (R203). Safe: the spec's own fault. -/
  | stackUnderflow
  /-- Code 4: CALL when the stack holds STACK_LIMIT entries. Raised by 2NNN (R205), never when the limit is `none`. Safe: the
  spec's own fault. -/
  | stackOverflow (depth : Nat)
  /-- Code 5: a key index above 15. Raised by EX9E and EXA1 (R302). Safe: the spec's own fault (D15). -/
  | keyIndexOutOfRange (index : Byte)
  deriving DecidableEq, Repr

/-- The fault record (R402). Its `code` and `info` are functions of the fault: `Fault.code` and `Fault.info` (log 11). -/
structure FaultRecord where
  /-- Which fault, with the info it records (R400). -/
  fault : Fault
  /-- The address of the faulting instruction; the fetch address for code 1. -/
  pc : Word
  /-- The fetched word; none for code 1. -/
  word : Option Word
  deriving DecidableEq, Repr

/-- What a step returns (R51). -/
inductive StepOutcome where
  /-- An instruction ran to completion. -/
  | executed
  /-- FX0A found no key held; pc unchanged. -/
  | waiting
  /-- The recoverable event: the address and the unknown word; pc advanced by 2 (R156, R401). -/
  | unknown (pc : Word) (word : Word)
  /-- The step faulted; the halt latch is set (R403). -/
  | fault (rec : FaultRecord)
  /-- The latch was already set; nothing changed (R150). -/
  | halted (rec : FaultRecord)
  deriving DecidableEq, Repr

/-- The calls to which the spec gives no meaning. -/
inductive Refusal where
  /-- An instruction the model gives no meaning to; raised by no arm of exec. Safe. -/
  | notModelled (mnemonic : String)
  /-- `step` in phase Constructed, raised by `step`: "in phase `Constructed` the call is refused" (R150, R50). Safe. -/
  | stepBeforeLoad
  /-- `load_program` in phase Loaded, raised by `loadProgram`: "A host call outside its phase is refused" (R41, R50). Safe. -/
  | loadAfterLoad
  deriving DecidableEq, Repr

/-- Memory: the cells that differ from the reset content, in rising order of address (R80; log 9). -/
abbrev Memory := List Host.Cell

/-- The display: 32 rows of 64 one-bit cells; row y, column x is `disp[y][x]` (R37). -/
abbrev Display := Vector (Vector Bool 64) 32

/-- The state of the machine (R30). `cfg`, `draws` and `outcome` are the model's own fields; the rest is the spec's. -/
structure State where
  /-- The memory of 4096 bytes (R80). -/
  mem : Memory
  /-- V0 to VF (R31); VF is also the flag register (R32). -/
  V : Vector Byte 16
  /-- The program counter (R33). -/
  pc : Word
  /-- The index register (R34). -/
  I : Word
  /-- The call stack of return addresses, top last (R35). -/
  stack : List Word
  /-- The delay timer (R36). -/
  DT : Byte
  /-- The sound timer (R36). -/
  ST : Byte
  /-- The display buffer (R37). -/
  disp : Display
  /-- The key state (R38). -/
  keys : Vector Bool 16
  /-- The halt latch (R40). -/
  halt : Option FaultRecord
  /-- The lifecycle phase (R41). -/
  phase : Phase
  /-- The parameters this machine was constructed with (R8); nothing writes them (log 1). -/
  cfg : Config
  /-- How many random bytes have been drawn; the next one is `Config.freeRnd draws` (R52; log 4). -/
  draws : Nat
  /-- What the last step returned (R51); none before the first (log 6). -/
  outcome : Option StepOutcome
  deriving DecidableEq, Repr

/-- `construct()`: the only reset (R500). Memory lists nothing: it reads as FONT and zeros. -/
def State.construct (cfg : Config) : State where
  mem := []
  V := Vector.replicate 16 0x00
  pc := 0x200
  I := 0x0000
  stack := []
  DT := 0
  ST := 0
  disp := Vector.replicate 32 (Vector.replicate 64 false)
  keys := Vector.replicate 16 false
  halt := none
  phase := .constructed
  cfg := cfg
  draws := 0
  outcome := none

/-- The machine right after construction, at the default parameters (R500, R8). -/
def State.reset : State := State.construct defaultConfig

/-- What one step or meaning answers. -/
abbrev Result := Host.Outcome State Fault Refusal

end Sys2Proof.Machine
end

