-- ==== Sys2Proof/Machine/Ops.lean ====
section
/-! DEFINITION. Machine/Ops.lean: the named operations over memory, registers, display and stack, taking a fault, and the
ends of a step. -/

namespace Sys2Proof.Machine

/-! ## Memory (R80 to R91) -/

/-- What an address nothing has written reads as: the content at construction, FONT at 0x000 to 0x04F and zero elsewhere
(R81, R500). -/
def resetByte (font : Font) (a : Nat) : Byte := if h : a < 80 then font[a] else 0x00

/-- The listed byte at an address. -/
def Memory.lookup : Memory → Nat → Option Byte
  | [], _ => none
  | (c, v) :: m, a => if c = a then some v else Memory.lookup m a

/-- The byte at an address (R82). -/
def Memory.read (font : Font) (m : Memory) (a : Nat) : Byte := (m.lookup a).getD (resetByte font a)

/-- List a cell, in rising order of address, in place of the one listed there. -/
def Memory.insert : Memory → Nat → Byte → Memory
  | [], a, b => [(a, b)]
  | (c, v) :: m, a, b =>
    if a < c then (a, b) :: (c, v) :: m else if c = a then (a, b) :: m else (c, v) :: Memory.insert m a b

/-- Take an address off the list. -/
def Memory.erase (m : Memory) (a : Nat) : Memory := m.filter fun c => c.1 != a

/-- Write the byte at an address (R83), keeping the canonical form: a byte equal to the reset content is not listed. -/
def Memory.write (font : Font) (m : Memory) (a : Nat) (b : Byte) : Memory :=
  if b = resetByte font a then m.erase a else m.insert a b

/-- Write bytes at consecutive addresses, in increasing order (R87). -/
def Memory.writeAll (font : Font) (m : Memory) (a : Nat) : List Byte → Memory
  | [] => m
  | b :: bs => Memory.writeAll font (m.write font a b) (a + 1) bs

/-- The canonical form above a lower bound: addresses strictly rising, all below 4096, none equal to the reset content. -/
def Memory.wfFrom (font : Font) : Nat → Memory → Bool
  | _, [] => true
  | lo, (a, b) :: m => decide (lo ≤ a) && decide (a < memSize) && (b != resetByte font a) && Memory.wfFrom font (a + 1) m

/-- The canonical form of a memory (log 9). -/
def Memory.wf (font : Font) (m : Memory) : Bool := Memory.wfFrom font 0 m

/-- The byte at an address of the machine's memory. -/
def State.readByte (s : State) (a : Nat) : Byte := s.mem.read s.cfg.font a

/-- The bytes at n consecutive addresses, in increasing order (R84, R87). -/
def State.readBytes (s : State) (a n : Nat) : List Byte := (List.range n).map fun k => s.readByte (a + k)

/-- The machine with bytes written at consecutive addresses. -/
def State.writeBytes (s : State) (a : Nat) (bs : List Byte) : State :=
  { s with mem := s.mem.writeAll s.cfg.font a bs }

/-- The check before a data access of n bytes at base: for n ≥ 1 the range must end at or below 4095, computed without
wrapping; else the fault names the first address above 4095, `max(base, 4096)` (R87, R270; log 17). -/
def checkRange (base n : Nat) : Except Fault Unit :=
  if n = 0 ∨ base + n ≤ memSize then .ok () else .error (.dataOutOfBounds (max base memSize))

/-- Check a range, then read it (R82, R87). -/
def State.readRange (s : State) (base n : Nat) : Except Fault (List Byte) :=
  (checkRange base n).map fun _ => s.readBytes base n

/-- Check a range, then write it (R83, R87). -/
def State.writeRange (s : State) (base : Nat) (bs : List Byte) : Except Fault State :=
  (checkRange base bs.length).map fun _ => s.writeBytes base bs

/-- Fetch the word at pc: two bytes, big-endian; pc > 4094 faults, an odd pc does not (R152, R85, R86). -/
def State.fetch16 (s : State) : Except Fault Word :=
  if s.pc.toNat > 4094 then .error (.fetchOutOfBounds s.pc)
  else .ok (wordOfBytes (s.readByte s.pc.toNat) (s.readByte (s.pc.toNat + 1)))

/-! ## Registers (R31 to R38) -/

/-- `V[i]` (R10, R31). -/
def State.getV (s : State) (r : Reg) : Byte := s.V[r.toNat]'r.isLt

/-- `V[i] <- v` (R10, R31). -/
def State.setV (s : State) (r : Reg) (v : Byte) : State := { s with V := s.V.set r.toNat v r.isLt }

/-- `pc <- target` (R10, R33). -/
def State.setPc (s : State) (v : Word) : State := { s with pc := v }

/-- `I <- v` (R10, R34). -/
def State.setI (s : State) (v : Word) : State := { s with I := v }

/-- `DT <- v` (R10, R36). -/
def State.setDT (s : State) (v : Byte) : State := { s with DT := v }

/-- `ST <- v` (R10, R36). -/
def State.setST (s : State) (v : Byte) : State := { s with ST := v }

/-- Replace the call stack (R35). -/
def State.setStack (s : State) (v : List Word) : State := { s with stack := v }

/-- Replace the display buffer (R37). -/
def State.setDisp (s : State) (v : Display) : State := { s with disp := v }

/-- Replace the key state (R38). -/
def State.setKeys (s : State) (v : Vector Bool 16) : State := { s with keys := v }

/-- Replace the halt latch (R40). -/
def State.setHalt (s : State) (v : Option FaultRecord) : State := { s with halt := v }

/-- Replace the phase (R41). -/
def State.setPhase (s : State) (v : Phase) : State := { s with phase := v }

/-- Note that one more random byte has been drawn (R52; log 4). -/
def State.countDraw (s : State) : State := { s with draws := s.draws + 1 }

/-- Return an outcome from the step (R51; log 6). -/
def State.report (s : State) (o : StepOutcome) : State := { s with outcome := some o }

/-! ## Program counter (R155, R200) -/

/-- The default advance, `pc <- pc + 2` (R155). -/
def State.advance (s : State) : State := s.setPc (s.pc + 2)

/-- Skip(c): `pc + 4` if the condition holds, else `pc + 2` (R200). -/
def State.skipIf (s : State) (c : Bool) : State := s.setPc (if c then s.pc + 4 else s.pc + 2)

/-! ## Call stack (R201, R202) -/

/-- Push(a): StackOverflow when the stack holds STACK_LIMIT entries, never when the limit is none (R201). -/
def State.push (s : State) (a : Word) : Except Fault State :=
  if s.cfg.stackLimit = some s.stack.length then .error (.stackOverflow s.stack.length)
  else .ok (s.setStack (s.stack ++ [a]))

/-- Pop(): the last entry and the machine without it; StackUnderflow when the stack is empty (R202). -/
def State.pop (s : State) : Except Fault (Word × State) :=
  match s.stack.getLast? with
  | none => .error .stackUnderflow
  | some a => .ok (a, s.setStack s.stack.dropLast)

/-! ## Display cells (R37) -/

/-- `Disp[x][y]` (R10, R37). -/
def Display.cell (d : Display) (x : Fin 64) (y : Fin 32) : Bool := d[y.val][x.val]

/-- `Disp[x][y] <- not Disp[x][y]` (R301). -/
def Display.flip (d : Display) (x : Fin 64) (y : Fin 32) : Display := d.set y.val (d[y.val].set x.val (!d.cell x y))

/-- The display with every cell false (R300, R500). -/
def Display.blank : Display := Vector.replicate 32 (Vector.replicate 64 false)

/-! ## Faults and the end of a step (R157, R158, R400 to R403) -/

/-- The code of a fault (R400). -/
def Fault.code : Fault → Nat
  | .fetchOutOfBounds _ => 1
  | .dataOutOfBounds _ => 2
  | .stackUnderflow => 3
  | .stackOverflow _ => 4
  | .keyIndexOutOfRange _ => 5

/-- The info a fault records, 0 where none (R400, R402). -/
def Fault.info : Fault → Nat
  | .fetchOutOfBounds pc => pc.toNat
  | .dataOutOfBounds addr => addr
  | .stackUnderflow => 0
  | .stackOverflow depth => depth
  | .keyIndexOutOfRange index => index.toNat

/-- TAKING A FAULT (R403): every effect of the step is discarded (`s` is the state before it), the halt latch holds the
record, and the step returns Fault(rec). There is no vector, no handler and no mode, and no return (R405). -/
def State.takeFault (s : State) (f : Fault) (word : Option Word) : State :=
  (s.setHalt (some ⟨f, s.pc, word⟩)).report (.fault ⟨f, s.pc, word⟩)

/-- The end of an instruction that ran to completion (R158). -/
def finish (t : State) : Result := .next (t.report .executed)

/-- The atomic commit (R157): all effects of the instruction, or the fault with none of them. The fault record's word is
the instruction's own encoding (R402; log 11). -/
def commit (i : Instr) (s : State) (effect : Except Fault State) : Result :=
  match effect with
  | .ok t => finish t
  | .error f => .next (s.takeFault f (some (encode i)))

/-- The unknown-instruction step (R156): report the word and its address, `pc <- pc + 2`, nothing else. -/
def State.skipUnknown (s : State) (w : Word) : State := s.advance.report (.unknown s.pc w)

end Sys2Proof.Machine
end

