-- ==== Sys2Proof/Machine/Operands.lean ====
section
/-! DEFINITION. Machine/Operands.lean: the operand forms: immediates, the register block, the key index, sprites. -/

namespace Sys2Proof.Machine

/-- NNN as an address, zero-extended (R112). -/
def addrOf (nnn : Addr12) : Word := nnn.setWidth 16

/-- A register's value as a 16-bit quantity, zero-extended (R210, R272, R273). -/
def wordOfByte (v : Byte) : Word := v.setWidth 16

/-- The number of registers V0 to V[X] inclusive (R113). -/
def blockSize (x : Reg) : Nat := x.toNat + 1

/-- The values of V0 to V[X] inclusive, V0 first (R275). -/
def State.regBlock (s : State) (x : Reg) : List Byte := s.V.toList.take (blockSize x)

/-- Load consecutive registers from register k on (R276). -/
def loadBlock (V : Vector Byte 16) (k : Nat) : List Byte → Vector Byte 16
  | [] => V
  | b :: bs => loadBlock (V.setIfInBounds k b) (k + 1) bs

/-- The machine with V0 and up loaded from bytes (R276). -/
def State.setRegBlock (s : State) (bs : List Byte) : State := { s with V := loadBlock s.V 0 bs }

/-- The decimal digits of a byte: hundreds, tens, ones (R274). -/
def bcdDigits (v : Byte) : List Byte := [v / 100, (v / 10) % 10, v % 10]

/-- The key snapshot K of this step: the key flags, which nothing changes within a step (R151; log 12). -/
def State.snapshot (s : State) : Vector Bool 16 := s.keys

/-- The key a register's value names; an index above 15 faults (R302). -/
def State.keyAt (s : State) (v : Byte) : Except Fault Bool :=
  if h : v.toNat < 16 then .ok (s.snapshot[v.toNat]) else .error (.keyIndexOutOfRange v)

/-- The lowest held key, if one is held (R306). -/
def State.lowestKey (s : State) : Option Byte := (s.snapshot.toList.findIdx? id).map (BitVec.ofNat 8)

/-- The step's random byte (R52): the free value at this draw (log 4). -/
def State.rnd (s : State) : Byte := Config.freeRnd s.draws

/-! ## Sprites (R301): the loops of the rule's pseudocode, over the display and `hit` -/

/-- One set sprite bit at column x, row y before wrapping: note a hit on a set cell, then flip it. -/
def plot (x y : Nat) (d : Display × Bool) : Display × Bool :=
  (d.1.flip (Fin.ofNat 64 x) (Fin.ofNat 32 y), d.2 || d.1.cell (Fin.ofNat 64 x) (Fin.ofNat 32 y))

/-- One sprite byte at row y: bit 7 is the leftmost pixel (R301, D17). -/
def drawRow (x y : Nat) (b : Byte) (d : Display × Bool) : Display × Bool :=
  (List.range 8).foldl (fun d c => if b.getLsbD (7 - c) then plot (x + c) y d else d) d

/-- The sprite's bytes at successive rows. -/
def drawSprite (x y : Nat) : List Byte → Display × Bool → Display × Bool
  | [], d => d
  | b :: bs, d => drawSprite x (y + 1) bs (drawRow x y b d)

end Sys2Proof.Machine
end

