-- ==== Sys2Proof/Machine/Flags.lean ====
section
/-! DEFINITION. Machine/Flags.lean: every value an instruction writes to VF as a flag (R32), and the order of the writes. -/

namespace Sys2Proof.Machine

/-- VF, general register 15 and the flag register (R32). -/
def VF : Reg := 0xF

/-- A flag as the byte VF holds: 1 or 0. -/
def flagByte (c : Bool) : Byte := if c then 1 else 0

/-- carry of a + b: 1 iff the exact sum exceeds 255 (R230). -/
def carryOf (a b : Byte) : Bool := decide (a.toNat + b.toNat > 255)

/-- "no borrow" of a − b: 1 iff a ≥ b, unsigned (R230). -/
def noBorrowOf (a b : Byte) : Bool := decide (a.toNat ≥ b.toNat)

/-- The bit SHR shifts out: bit 0 of the source (R240). -/
def shiftedOutRight (s : Byte) : Bool := s.getLsbD 0

/-- The bit SHL shifts out: bit 7 of the source (R242). -/
def shiftedOutLeft (s : Byte) : Bool := s.getLsbD 7

/-- `V[X] <- result` first and `V[F] <- flag` second, so that VF ends holding the flag when X = F (R231, D9; log 14). -/
def State.setResultFlag (s : State) (x : Reg) (result : Byte) (flag : Bool) : State :=
  (s.setV x result).setV VF (flagByte flag)

end Sys2Proof.Machine
end

