-- ==== Sys2Proof/Machine/Alu.lean ====
section
/-! DEFINITION. Machine/Alu.lean: the register and ALU instructions (42_alu.md). Operands are read from the state at the
start of the instruction (R11); every result is 8 bits wide and wraps modulo 256 (R230). -/

namespace Sys2Proof.Machine

/-- LD VX, NN (R232). -/
def execLdImm (x : Reg) (nn : Byte) (s : State) : Result := finish (s.setV x nn).advance

/-- ADD VX, NN: no flag (R233). -/
def execAddImm (x : Reg) (nn : Byte) (s : State) : Result := finish (s.setV x (s.getV x + nn)).advance

/-- LD VX, VY (R234). -/
def execLdReg (x y : Reg) (s : State) : Result := finish (s.setV x (s.getV y)).advance

/-- OR VX, VY: no flag (R235, D10). -/
def execOrReg (x y : Reg) (s : State) : Result := finish (s.setV x (s.getV x ||| s.getV y)).advance

/-- AND VX, VY: no flag (R236, D10). -/
def execAndReg (x y : Reg) (s : State) : Result := finish (s.setV x (s.getV x &&& s.getV y)).advance

/-- XOR VX, VY: no flag (R237, D10). -/
def execXorReg (x y : Reg) (s : State) : Result := finish (s.setV x (s.getV x ^^^ s.getV y)).advance

/-- ADD VX, VY: VF = carry (R238). -/
def execAddReg (x y : Reg) (s : State) : Result :=
  finish (s.setResultFlag x (s.getV x + s.getV y) (carryOf (s.getV x) (s.getV y))).advance

/-- SUB VX, VY: V[X] − V[Y], VF = no borrow (R239). -/
def execSubReg (x y : Reg) (s : State) : Result :=
  finish (s.setResultFlag x (s.getV x - s.getV y) (noBorrowOf (s.getV x) (s.getV y))).advance

/-- SHR VX, VY: V[Y] shifted right by one, VF = its low bit (R240, D8). -/
def execShrReg (x y : Reg) (s : State) : Result :=
  finish (s.setResultFlag x (s.getV y >>> 1) (shiftedOutRight (s.getV y))).advance

/-- SUBN VX, VY: V[Y] − V[X], VF = no borrow (R241). -/
def execSubnReg (x y : Reg) (s : State) : Result :=
  finish (s.setResultFlag x (s.getV y - s.getV x) (noBorrowOf (s.getV y) (s.getV x))).advance

/-- SHL VX, VY: V[Y] shifted left by one, VF = its high bit (R242, D8). -/
def execShlReg (x y : Reg) (s : State) : Result :=
  finish (s.setResultFlag x (s.getV y <<< 1) (shiftedOutLeft (s.getV y))).advance

/-- The effect of RND for a given random byte: `V[X] <- rnd & NN` (R243). -/
def State.setRandom (s : State) (rnd : Byte) (x : Reg) (nn : Byte) : State := (s.setV x (rnd &&& nn)).advance

/-- RND VX, NN: the step's free random byte, masked (R243, R52; log 4). -/
def execRnd (x : Reg) (nn : Byte) (s : State) : Result := finish (s.setRandom s.rnd x nn).countDraw

end Sys2Proof.Machine
end

