-- ==== Sys2Proof/Machine/Control.lean ====
section
/-! DEFINITION. Machine/Control.lean: the control transfer instructions (41_control_flow.md). -/

namespace Sys2Proof.Machine

/-- RET: `pc <- Pop() + 2`, once (R203, C1). -/
def execRet (s : State) : Result := commit .ret s (s.pop.map fun (a, t) => t.setPc (a + 2))

/-- JP NNN: `pc <- zext_16(NNN)` (R204). -/
def execJp (nnn : Addr12) (s : State) : Result := finish (s.setPc (addrOf nnn))

/-- CALL NNN: push the address of this CALL, then `pc <- zext_16(NNN)` (R205). -/
def execCall (nnn : Addr12) (s : State) : Result :=
  commit (.call nnn) s ((s.push s.pc).map fun t => t.setPc (addrOf nnn))

/-- SE VX, NN: skip if V[X] = NN (R206). -/
def execSeImm (x : Reg) (nn : Byte) (s : State) : Result := finish (s.skipIf (s.getV x == nn))

/-- SNE VX, NN: skip if V[X] ≠ NN (R207). -/
def execSneImm (x : Reg) (nn : Byte) (s : State) : Result := finish (s.skipIf (s.getV x != nn))

/-- SE VX, VY: skip if V[X] = V[Y] (R208). -/
def execSeReg (x y : Reg) (s : State) : Result := finish (s.skipIf (s.getV x == s.getV y))

/-- SNE VX, VY: skip if V[X] ≠ V[Y] (R209). -/
def execSneReg (x y : Reg) (s : State) : Result := finish (s.skipIf (s.getV x != s.getV y))

/-- JP V0, NNN: `pc <- NNN + V0`, unmasked (R210). -/
def execJpV0 (nnn : Addr12) (s : State) : Result := finish (s.setPc (addrOf nnn + wordOfByte (s.getV 0x0)))

end Sys2Proof.Machine
end

