-- ==== Sys2Proof/Machine/DisplayInput.lean ====
section
/-! DEFINITION. Machine/DisplayInput.lean: the display, key and timer instructions (44_display_input_timers.md). -/

namespace Sys2Proof.Machine

/-- CLS: every cell false; VF unchanged (R300). -/
def execCls (s : State) : Result := finish (s.setDisp Display.blank).advance

/-- The machine after a sprite is drawn from its bytes at the coordinates in two registers, read before VF is written
(R301, D19). -/
def State.drawAt (s : State) (vx vy : Byte) (sprite : List Byte) : State :=
  let d := drawSprite (vx.toNat % 64) (vy.toNat % 32) sprite (s.disp, false)
  (s.setDisp d.1).setV VF (flagByte d.2)

/-- DRW VX, VY, N: the N bytes at I drawn at (V[X] mod 64, V[Y] mod 32); VF = collision, also when N = 0 (R301, D18). -/
def execDrw (x y : Reg) (n : Nibble) (s : State) : Result :=
  commit (.drw x y n) s
    ((s.readRange s.I.toNat n.toNat).map fun sprite => (s.drawAt (s.getV x) (s.getV y) sprite).advance)

/-- SKP VX: skip if the key V[X] is held (R303, R302). -/
def execSkp (x : Reg) (s : State) : Result := commit (.skp x) s ((s.keyAt (s.getV x)).map fun held => s.skipIf held)

/-- SKNP VX: skip if the key V[X] is not held (R304, R302). -/
def execSknp (x : Reg) (s : State) : Result := commit (.sknp x) s ((s.keyAt (s.getV x)).map fun held => s.skipIf !held)

/-- LD VX, DT (R305). -/
def execLdVDT (x : Reg) (s : State) : Result := finish (s.setV x s.DT).advance

/-- LD VX, K: the lowest held key; while none is held nothing changes and the step returns Waiting (R306, R158). -/
def execLdVK (x : Reg) (s : State) : Result :=
  match s.lowestKey with
  | some k => finish (s.setV x k).advance
  | none => .next (s.report .waiting)

/-- LD DT, VX (R307). -/
def execLdDTV (x : Reg) (s : State) : Result := finish (s.setDT (s.getV x)).advance

/-- LD ST, VX (R308). -/
def execLdSTV (x : Reg) (s : State) : Result := finish (s.setST (s.getV x)).advance

end Sys2Proof.Machine
end

