-- ==== Sys2Proof/Machine/IndexMemory.lean ====
section
/-! DEFINITION. Machine/IndexMemory.lean: the index register and memory instructions (43_index_memory.md). None changes I
as a side effect (R34, D11). -/

namespace Sys2Proof.Machine

/-- LD I, NNN: `I <- zext_16(NNN)` (R271). -/
def execLdI (nnn : Addr12) (s : State) : Result := finish (s.setI (addrOf nnn)).advance

/-- ADD I, VX: `I <- (I + V[X]) mod 65536`, no flag (R272). -/
def execAddIV (x : Reg) (s : State) : Result := finish (s.setI (s.I + wordOfByte (s.getV x))).advance

/-- LD F, VX: `I <- V[X] * 5`, with the whole register value (R273). -/
def execLdFV (x : Reg) (s : State) : Result := finish (s.setI (wordOfByte (s.getV x) * 5)).advance

/-- LD B, VX: the three decimal digits at I, I + 1, I + 2 (R274). -/
def execLdBV (x : Reg) (s : State) : Result :=
  commit (.ldBV x) s ((s.writeRange s.I.toNat (bcdDigits (s.getV x))).map State.advance)

/-- LD [I], VX: V0 to V[X] at I and up; I unchanged (R275). -/
def execStoreRegs (x : Reg) (s : State) : Result :=
  commit (.storeRegs x) s ((s.writeRange s.I.toNat (s.regBlock x)).map State.advance)

/-- LD VX, [I]: V0 to V[X] from I and up; I unchanged (R276). -/
def execLoadRegs (x : Reg) (s : State) : Result :=
  commit (.loadRegs x) s ((s.readRange s.I.toNat (blockSize x)).map fun bs => (s.setRegBlock bs).advance)

end Sys2Proof.Machine
end

