-- ==== Sys2Proof/Machine/Engine.lean ====
section
/-! DEFINITION. Machine/Engine.lean: the fetch-decode-execute step (40_engine_cycle.md). -/

namespace Sys2Proof.Machine

/-- Decode and execute a fetched word: its row's rule (R154), or the unknown-instruction step (R156). -/
def runWord (w : Word) (s : State) : Result :=
  match decodeWord w with
  | .ok i => exec i s
  | .error _ => .next (s.skipUnknown w)

/-- One step of a machine that is loaded and not halted: fetch, which may fault, then decode and execute (R152 to R157). -/
def runningStep (s : State) : Result :=
  match s.fetch16 with
  | .error f => .next (s.takeFault f none)
  | .ok w => runWord w s

/-- The whole step: refused in phase Constructed; Halted(rec) with nothing changed when the latch is set; otherwise one
instruction (R150). -/
def engineStep (s : State) : Result :=
  match s.phase with
  | .constructed => .refused .stepBeforeLoad
  | .loaded =>
    match s.halt with
    | some rec => .next (s.report (.halted rec))
    | none => runningStep s

/-- The machine with a word placed where the next step fetches, and ready to step: phase Loaded, the latch clear. It
stands for loading a program that begins with the word (log 7). Where pc is above 4094 nothing can be fetched, and no
byte is placed. -/
def placeFetchWord (s : State) (w : Word) : State :=
  let t := (s.setPhase .loaded).setHalt none
  if s.pc.toNat ≤ 4094 then t.writeBytes s.pc.toNat (bytesOfWord w) else t

end Sys2Proof.Machine
end

