-- ==== Sys2Proof/Machine/Step.lean ====
section
/-! DEFINITION. Machine/Step.lean: the step and the word it fetches. -/

namespace Sys2Proof.Machine

/-- `step` (R150 to R158). -/
def step (s : State) : Host.Outcome State Fault Refusal := engineStep s

/-- The machine with the opcode-table word `w` of `nbits` bits stored where `step` fetches its next instruction (log 7). -/
def State.withFetchWord (s : State) (nbits w : Nat) : State := placeFetchWord s (tableWord nbits w)

end Sys2Proof.Machine
end

