-- ==== Sys2Proof/Machine/Frontend.lean ====
section
/-! DEFINITION. Machine/Frontend.lean: the host operations beside `step` (R50), and a host's schedule of them (R53, D24). -/

namespace Sys2Proof.Machine

/-- What `load_program` returns (R50, R415). -/
inductive LoadStatus where
  | ok
  | loadError
  deriving DecidableEq, Repr

/-- What `set_key` returns (R50, R413). -/
inductive KeyStatus where
  | ok
  | rejected
  deriving DecidableEq, Repr

/-- `load_program(b)`: only in phase Constructed; an image over 3584 bytes is a LoadError and changes nothing (R502,
R415). -/
def loadProgram (b : List Byte) (s : State) : Host.Outcome (State × LoadStatus) Fault Refusal :=
  match s.phase with
  | .loaded => .refused .loadAfterLoad
  | .constructed =>
    if b.length > maxProgramSize then .next (s, .loadError)
    else .next ((s.writeBytes programBase b).setPhase .loaded, .ok)

/-- One timer tick of a counter: down by 1, never below 0 (R410). -/
def tickDown (v : Byte) : Byte := if v = 0 then 0 else v - 1

/-- `tick_timers()` (R410). -/
def tickTimers (s : State) : State := (s.setDT (tickDown s.DT)).setST (tickDown s.ST)

/-- The signal `sound_on` (R411). -/
def soundOn (s : State) : Bool := s.ST != 0

/-- `display()` (R412). -/
def displayGrid (s : State) : Display := s.disp

/-- `set_key(index, pressed)`: an index above 15 is Rejected (R413). -/
def setKey (index : Nat) (pressed : Bool) (s : State) : State × KeyStatus :=
  if h : index < 16 then (s.setKeys (s.keys.set index pressed), .ok) else (s, .rejected)

/-- The host operations that act on the machine (R50). -/
inductive HostOp where
  | load (b : List Byte)
  | step
  | tick
  | key (index : Nat) (pressed : Bool)
  deriving DecidableEq, Repr

/-- One host operation; they never interleave with a step (R53). -/
def HostOp.apply (op : HostOp) (s : State) : Result :=
  match op with
  | .load b =>
    match loadProgram b s with
    | .next (t, _) => .next t
    | .fault f => .fault f
    | .refused r => .refused r
  | .step => Sys2Proof.Machine.step s
  | .tick => .next (tickTimers s)
  | .key index pressed => .next (setKey index pressed s).1

/-- A schedule of host operations, in order, up to the first that is refused (R53, R507, D24). -/
def runSchedule : List HostOp → State → Result
  | [], s => .next s
  | op :: ops, s =>
    match op.apply s with
    | .next t => runSchedule ops t
    | .fault f => .fault f
    | .refused r => .refused r

end Sys2Proof.Machine
end

