-- ==== Sys2Proof/Safety.lean ====
section
/-! DEFINITION. Safety.lean: the terms the claims use: a machine that may step, the frame of an instruction, the
invariants, and the machines a host can bring about. -/

namespace Sys2Proof.Machine

/-- A machine whose next step executes an instruction: loaded and not halted (R150). -/
def Ready (s : State) : Prop := s.phase = .loaded ∧ s.halt = none

/-- The parts of the state, besides registers, memory and pc, that some instruction writes. -/
inductive Part where
  | I
  | stack
  | DT
  | ST
  | disp
  | draws
  deriving DecidableEq, Repr

/-- The frame of an instruction: what `t` keeps from `s`. Registers outside `regs`, bytes at addresses outside `stored` and
the parts outside `parts` are unchanged; the keys, the halt latch, the phase and the parameters always are. The pc and the
reported outcome are said by the statement itself. -/
structure Frame (regs : List Reg) (stored : Nat → Prop) (parts : List Part) (s t : State) : Prop where
  regs : ∀ r, r ∉ regs → t.getV r = s.getV r
  bytes : ∀ a, ¬ stored a → t.readByte a = s.readByte a
  I : .I ∉ parts → t.I = s.I
  stack : .stack ∉ parts → t.stack = s.stack
  DT : .DT ∉ parts → t.DT = s.DT
  ST : .ST ∉ parts → t.ST = s.ST
  disp : .disp ∉ parts → t.disp = s.disp
  draws : .draws ∉ parts → t.draws = s.draws
  keys : t.keys = s.keys
  halt : t.halt = s.halt
  phase : t.phase = s.phase
  cfg : t.cfg = s.cfg

/-- The addresses a form that stores nothing stores to. -/
def noBytes : Nat → Prop := fun _ => False

/-- The n addresses from base on. -/
def byteRange (base n : Nat) : Nat → Prop := fun a => base ≤ a ∧ a < base + n

/-- `t` is `s` after a fault entry: the latch holds the record, the step returned Fault(rec), and every other field is as
it was (R403). -/
def FaultedWith (s : State) (f : Fault) (word : Option Word) (t : State) : Prop :=
  t = { s with halt := some ⟨f, s.pc, word⟩, outcome := some (.fault ⟨f, s.pc, word⟩) }

/-- The invariant of the machine: memory keeps its canonical form; pc never passes 0x10FE (R33); every return address is
that of a CALL that was fetched (R203); the stack keeps within STACK_LIMIT (R35, R201); only a loaded machine halts, and
the record's pc is the machine's (R402, R403). -/
structure Inv (s : State) : Prop where
  memory : s.mem.wf s.cfg.font = true
  pcBound : s.pc.toNat ≤ 0x10FE
  returns : ∀ a ∈ s.stack, a.toNat ≤ 4094
  depth : ∀ n, s.cfg.stackLimit = some n → s.stack.length ≤ n
  halted : ∀ rec, s.halt = some rec → s.phase = .loaded ∧ rec.pc = s.pc

/-- The fault record describes the machine it halted (R402): fetching at the machine's pc gives the record's word, or, for
code 1, where the record has no word, the record's fault. -/
def RecordDescribes (s : State) : Prop :=
  ∀ rec, s.halt = some rec →
    rec.pc = s.pc ∧ s.fetch16 = (match rec.word with | some w => .ok w | none => .error rec.fault)

/-- The machines a host can bring about from construction, by any schedule of host operations (R50, R53, D24). -/
inductive Reachable (cfg : Config) : State → Prop where
  | start : Reachable cfg (State.construct cfg)
  | op (s t : State) (op : HostOp) : Reachable cfg s → op.apply s = .next t → Reachable cfg t

/-- Row r of the sprite bytes lights this cell: bit 7 of a byte is its leftmost pixel, and every pixel wraps on its own
(R301, D17, D20). -/
def spriteLights (x0 y0 : Nat) (sprite : List Byte) (px : Fin 64) (py : Fin 32) : Bool :=
  (List.range sprite.length).any fun r => (List.range 8).any fun c =>
    (sprite.getD r 0).getLsbD (7 - c) && (x0 + c) % 64 == px.val && (y0 + r) % 32 == py.val

end Sys2Proof.Machine
end

