-- ==== Sys2Proof/Certificates/Slice0/Obligations.lean ====
section
/-! DEFINITION. Certificates/Slice0/Obligations.lean: the statements for the provers, one for each entry of
OBLIGATIONS.json. `D<n>` and `G<n>` are the spec's own decisions and general-knowledge passages (spec/92, spec/93). -/

open Sys2Proof Sys2Proof.Machine

/-! ## Encoding -/

/-- Decoding the bytes of an instruction gives it back, with every operand, and leaves the rest of the bytes. -/
def Obligations.DecodeOfEncodeIsTheInstruction : Prop :=
  ∀ (i : Instr) (rest : List Byte), i.wellFormed = true → decodeBytes (encodeBytes i ++ rest) = .ok (i, rest)

/-- A word that decodes is the encoding of what it decodes to: no word has two readings and no bit is dropped. -/
def Obligations.EncodeOfDecodeIsTheWord : Prop :=
  ∀ (w : Word) (i : Instr), decodeWord w = .ok i → encode i = w

/-- The decoder accepts exactly the words of the opcode map under its full masks (R115; the masks are the spec's decision
D6), gives the instruction of the row that matches, and names every other word as unknown. -/
def Obligations.DecoderAcceptsExactlyTheTable : Prop :=
  ∀ w : Word,
    (∀ i, decodeWord w = .ok i → i.row ∈ opTable ∧ i.row.accepts w = true) ∧
    ((∃ r ∈ opTable, r.accepts w = true) → ∃ i, decodeWord w = .ok i) ∧
    ((∀ r ∈ opTable, r.accepts w = false) → decodeWord w = .error (.unknownWord w))

/-- The rows of the opcode map do not overlap (R114). -/
def Obligations.TableRowsDoNotOverlap : Prop :=
  ∀ (w : Word) (r r' : OpRow), r ∈ opTable → r' ∈ opTable → r.accepts w = true → r'.accepts w = true → r = r'

/-- The decode examples of R119, and no other claim. -/
def Obligations.ExampleWordsDecode : Prop :=
  decodeWord 0x00E0 = .ok .cls ∧ decodeWord 0x1200 = .ok (.jp 0x200) ∧ decodeWord 0x6005 = .ok (.ldImm 0x0 0x05) ∧
  decodeWord 0x7003 = .ok (.addImm 0x0 0x03) ∧ decodeWord 0xF007 = .ok (.ldVDT 0x0) ∧
  decodeWord 0xA050 = .ok (.ldI 0x050) ∧ decodeWord 0xD005 = .ok (.drw 0x0 0x0 0x5) ∧
  (∀ w ∈ [(0x00E0, 0x0, 0x0, 0xE, 0x0, 0xE0, 0x0E0), (0x1200, 0x1, 0x2, 0x0, 0x0, 0x00, 0x200),
          (0x6005, 0x6, 0x0, 0x0, 0x5, 0x05, 0x005), (0x7003, 0x7, 0x0, 0x0, 0x3, 0x03, 0x003),
          (0xF007, 0xF, 0x0, 0x0, 0x7, 0x07, 0x007), (0xA050, 0xA, 0x0, 0x5, 0x0, 0x50, 0x050),
          (0xD005, 0xD, 0x0, 0x0, 0x5, 0x05, 0x005)],
    (fieldClass w.1, fieldX w.1, fieldY w.1, fieldN w.1, fieldNN w.1, fieldNNN w.1) = w.2)

/-! ## The step -/

/-- A step of a ready machine runs the instruction that the two bytes at pc decode to, the byte at the lower address first,
and does nothing besides. -/
def Obligations.StepRunsTheDecodedInstruction : Prop :=
  ∀ (s : State) (i : Instr), Ready s → s.pc.toNat ≤ 4094 →
    decodeBytes [s.readByte s.pc.toNat, s.readByte (s.pc.toNat + 1)] = .ok (i, []) → step s = exec i s

/-- A word of no row is reported with its address and skipped, and nothing else changes (R156; which words are unknown is
the spec's decision D6, the event's payload its decision D7). -/
def Obligations.UnknownWordIsSkipped : Prop :=
  ∀ (s : State) (w : Word), Ready s → s.pc.toNat ≤ 4094 →
    w = wordOfBytes (s.readByte s.pc.toNat) (s.readByte (s.pc.toNat + 1)) → legalWord w = false →
    ∃ t, step s = .next t ∧ t.pc.toNat = s.pc.toNat + 2 ∧ t.outcome = some (.unknown s.pc w) ∧
      t.V = s.V ∧ t.mem = s.mem ∧ Frame [] noBytes [] s t

/-- A fetch at pc > 4094 faults, and the fault is taken with the fetch address and no word (R152; the halt latch and the
record are the spec's decisions D13 and D14). -/
def Obligations.FetchPastTheEndFaults : Prop :=
  ∀ s : State, Ready s → s.pc.toNat > 4094 →
    ∃ t, step s = .next t ∧ FaultedWith s (.fetchOutOfBounds s.pc) none t

/-- A halted machine's step returns Halted(rec) and changes nothing else (R150; the spec's decision D13). -/
def Obligations.HaltedStepChangesNothing : Prop :=
  ∀ (s : State) (rec : FaultRecord), s.phase = .loaded → s.halt = some rec →
    ∃ t, step s = .next t ∧ t = { s with outcome := some (.halted rec) }

/-- A step is refused before a program is loaded, and after that every step of every machine answers a next state: no
instruction, word, address or operand stops the model (R150, R158, R159; refusing is the spec's decision D23). -/
def Obligations.StepIsRefusedOnlyBeforeLoad : Prop :=
  ∀ s : State,
    (s.phase = .constructed → step s = .refused .stepBeforeLoad) ∧ (s.phase = .loaded → ∃ t, step s = .next t)

/-- What an instruction can do: run to completion with the halt latch as it was; wait, with no change to any state; or
fault, with none of its effects and its own word in the record. Only FX0A waits (R157, R158, R403; the record is the
spec's decision D14). -/
def Obligations.InstructionRunsWaitsOrFaults : Prop :=
  ∀ (i : Instr) (s : State), ∃ t, exec i s = .next t ∧
    ((t.outcome = some .executed ∧ t.halt = s.halt) ∨
     ((∃ x, i = .ldVK x) ∧ t = { s with outcome := some .waiting }) ∨
     (∃ f, FaultedWith s f (some (encode i)) t))

/-- Which fault each instruction can raise: RET code 3, CALL code 4, FX33, FX55, FX65 and DXYN code 2, EX9E and EXA1 code 5,
and no other instruction any (R404, R400; the codes are the spec's decision D14). -/
def Obligations.FaultsOfEachInstruction : Prop :=
  ∀ (i : Instr) (s t : State) (f : Fault) (word : Option Word), exec i s = .next t → FaultedWith s f word t →
    (f.code = 3 ∧ i = .ret) ∨ (f.code = 4 ∧ ∃ nnn, i = .call nnn) ∨
    (f.code = 2 ∧ ((∃ x, i = .ldBV x) ∨ (∃ x, i = .storeRegs x) ∨ (∃ x, i = .loadRegs x) ∨ (∃ x y n, i = .drw x y n))) ∨
    (f.code = 5 ∧ ((∃ x, i = .skp x) ∨ (∃ x, i = .sknp x)))

/-- A step that halts a ready machine applies no effect: the machine after it is the machine before it but for the latch
and the reported fault (R403, R157; the spec's decisions D12 and D13). -/
def Obligations.FaultingStepKeepsTheState : Prop :=
  ∀ s t : State, Ready s → step s = .next t → t.halt ≠ none →
    ∃ f word, FaultedWith s f word t ∧ (word = none ↔ f.code = 1) ∧
      (∀ w, word = some w → s.fetch16 = .ok w)

/-- Every instruction but the jumps, CALL, RET, the skips and FX0A advances pc by exactly 2 when it runs to completion
(R155); pc ≤ 4094 is the spec's own condition, that the fetch at pc succeeded. -/
def Obligations.DefaultAdvanceIsTwoBytes : Prop :=
  ∀ (i : Instr) (s t : State), s.pc.toNat ≤ 4094 → exec i s = .next t → t.outcome = some .executed →
    (t.pc.toNat = s.pc.toNat + 2 ∨
      i = .ret ∨ (∃ nnn, i = .jp nnn ∨ i = .call nnn ∨ i = .jpV0 nnn) ∨
      (∃ x nn, i = .seImm x nn ∨ i = .sneImm x nn) ∨ (∃ x y, i = .seReg x y ∨ i = .sneReg x y) ∨
      (∃ x, i = .skp x ∨ i = .sknp x))

/-! ## Invariants -/

/-- The invariant holds right after construction, for all parameters. -/
def Obligations.InvariantHoldsAtConstruction : Prop :=
  ∀ cfg : Config, Inv (State.construct cfg) ∧ RecordDescribes (State.construct cfg)

/-- Every step keeps the invariant: memory's canonical form, the bound on pc, the return addresses, the stack's limit and
the halted machine's record. -/
def Obligations.StepKeepsTheInvariant : Prop :=
  ∀ s t : State, Inv s → step s = .next t → Inv t

/-- Every host operation keeps the invariant. -/
def Obligations.HostOperationsKeepTheInvariant : Prop :=
  ∀ (op : HostOp) (s t : State), Inv s → op.apply s = .next t → Inv t

/-- After any host operation the fault record still describes the machine it halted: fetching at its pc gives the record's
word, or the record's fetch fault (R402; the record is the spec's decision D14). -/
def Obligations.FaultRecordDescribesTheMachine : Prop :=
  ∀ (op : HostOp) (s t : State), Inv s → RecordDescribes s → op.apply s = .next t → RecordDescribes t

/-- Every machine a host can bring about, by any schedule of loads, steps, ticks and key changes, meets the invariant,
carries a record that describes it, and has the parameters it was constructed with. -/
def Obligations.ReachableMachinesMeetTheInvariant : Prop :=
  ∀ (cfg : Config) (s : State), Reachable cfg s → Inv s ∧ RecordDescribes s ∧ s.cfg = cfg

/-! ## Memory -/

/-- After consecutive bytes are written, a read in their range returns the byte written there, and every other address reads
as before (R82, R83, R88). -/
def Obligations.ReadReturnsTheLastWrite : Prop :=
  ∀ (s : State) (a : Nat) (bs : List Byte),
    (∀ (k : Nat) (h : k < bs.length), (s.writeBytes a bs).readByte (a + k) = bs[k]) ∧
    (∀ c, ¬ byteRange a bs.length c → (s.writeBytes a bs).readByte c = s.readByte c)

/-- Memories in canonical form that read alike are equal data. -/
def Obligations.EqualReadsMakeEqualMemories : Prop :=
  ∀ (font : Font) (m m' : Memory), m.wf font = true → m'.wf font = true →
    (∀ a, m.read font a = m'.read font a) → m = m'

/-! ## Which instructions write what -/

/-- Only ANNN, FX1E and FX29 write I (R34; that FX55 and FX65 do not is the spec's decision D11). -/
def Obligations.IndexWrittenOnlyByThree : Prop :=
  ∀ (i : Instr) (s t : State), exec i s = .next t → t.I ≠ s.I →
    (∃ nnn, i = .ldI nnn) ∨ (∃ x, i = .addIV x) ∨ (∃ x, i = .ldFV x)

/-- "Mutated only by the sprite-draw opcode via XOR compositing; cleared only by the explicit clear opcode" (R37). -/
def Obligations.DisplayWrittenOnlyByDrawAndClear : Prop :=
  ∀ (i : Instr) (s t : State), exec i s = .next t → t.disp ≠ s.disp → i = .cls ∨ ∃ x y n, i = .drw x y n

/-- No instruction but CALL and RET touches the stack (R35); only FX33 and FX55 change memory; only FX15 writes DT and only
FX18 writes ST; none writes the keys, the phase or the parameters (R36, R38, R41). -/
def Obligations.StackMemoryTimersHaveTheirWriters : Prop :=
  ∀ (i : Instr) (s t : State), exec i s = .next t →
    (t.stack ≠ s.stack → i = .ret ∨ ∃ nnn, i = .call nnn) ∧
    (t.mem ≠ s.mem → (∃ x, i = .ldBV x) ∨ ∃ x, i = .storeRegs x) ∧
    (t.DT ≠ s.DT → ∃ x, i = .ldDTV x) ∧ (t.ST ≠ s.ST → ∃ x, i = .ldSTV x) ∧
    t.keys = s.keys ∧ t.phase = s.phase ∧ t.cfg = s.cfg

/-- The instructions that can change VF are the six that write it as a flag and those with VF as their destination (R32;
that OR, AND, XOR and FX1E do not reset it is the spec's decision D10). -/
def Obligations.FlagRegisterHasItsWriters : Prop :=
  ∀ (i : Instr) (s t : State), exec i s = .next t → t.getV 0xF ≠ s.getV 0xF →
    (∃ x y, i = .addReg x y ∨ i = .subReg x y ∨ i = .shrReg x y ∨ i = .subnReg x y ∨ i = .shlReg x y) ∨
    (∃ x y n, i = .drw x y n) ∨ (∃ nn, i = .ldImm 0xF nn ∨ i = .addImm 0xF nn ∨ i = .rnd 0xF nn) ∨
    (∃ y, i = .ldReg 0xF y ∨ i = .orReg 0xF y ∨ i = .andReg 0xF y ∨ i = .xorReg 0xF y) ∨
    i = .ldVDT 0xF ∨ i = .ldVK 0xF ∨ i = .loadRegs 0xF

/-- What the host's keys are makes no difference to an instruction other than EX9E, EXA1 and FX0A (R38). Two runs are
compared: the instance of RND holds because both share the draw count and so the free byte, the model's choice (log 4). -/
def Obligations.KeysMatterOnlyToKeyInstructions : Prop :=
  ∀ (i : Instr) (s t : State) (keys : Vector Bool 16),
    (∀ x, i ≠ .skp x ∧ i ≠ .sknp x ∧ i ≠ .ldVK x) → exec i s = .next t →
    exec i { s with keys := keys } = .next { t with keys := keys }

/-- "No instruction reads ST" (R36): with another ST, every instruction does the same; only FX18 ends with the same ST.
Two runs are compared: the instance of RND holds because both share the draw count and so the free byte, the model's
choice (log 4). -/
def Obligations.NoInstructionReadsTheSoundTimer : Prop :=
  ∀ (i : Instr) (s t : State) (v : Byte), exec i s = .next t →
    ((∃ x, i = .ldSTV x) → exec i { s with ST := v } = .next t) ∧
    ((∀ x, i ≠ .ldSTV x) → exec i { s with ST := v } = .next { t with ST := v })

/-! ## Control transfer -/

/-- The register and immediate skips: pc + 4 when the condition holds, else pc + 2, and nothing else (R206 to R209). -/
def Obligations.CompareSkipsChooseTheNextPc : Prop :=
  ∀ (x y : Reg) (nn : Byte) (s : State),
    (∃ t, exec (.seImm x nn) s = .next t ∧ t.pc = (if s.getV x = nn then s.pc + 4 else s.pc + 2) ∧
      t.outcome = some .executed ∧ Frame [] noBytes [] s t) ∧
    (∃ t, exec (.sneImm x nn) s = .next t ∧ t.pc = (if s.getV x = nn then s.pc + 2 else s.pc + 4) ∧
      t.outcome = some .executed ∧ Frame [] noBytes [] s t) ∧
    (∃ t, exec (.seReg x y) s = .next t ∧ t.pc = (if s.getV x = s.getV y then s.pc + 4 else s.pc + 2) ∧
      t.outcome = some .executed ∧ Frame [] noBytes [] s t) ∧
    (∃ t, exec (.sneReg x y) s = .next t ∧ t.pc = (if s.getV x = s.getV y then s.pc + 2 else s.pc + 4) ∧
      t.outcome = some .executed ∧ Frame [] noBytes [] s t)

/-- JP NNN goes to NNN; JP V0, NNN goes to the exact, unmasked sum NNN + V0; neither writes anything else (R204, R210). -/
def Obligations.JumpsGoToTheirTargets : Prop :=
  ∀ (nnn : Addr12) (s : State),
    (∃ t, exec (.jp nnn) s = .next t ∧ t.pc.toNat = nnn.toNat ∧
      t.outcome = some .executed ∧ Frame [] noBytes [] s t) ∧
    (∃ t, exec (.jpV0 nnn) s = .next t ∧ t.pc.toNat = nnn.toNat + (s.getV 0x0).toNat ∧
      t.outcome = some .executed ∧ Frame [] noBytes [] s t)

/-- CALL pushes its own address and jumps; only when the stack already holds STACK_LIMIT entries does it fault instead
(R201, R205; the limit as a parameter is the spec's decision D3). -/
def Obligations.CallPushesItsOwnAddress : Prop :=
  ∀ (nnn : Addr12) (s : State),
    (s.cfg.stackLimit ≠ some s.stack.length →
      ∃ t, exec (.call nnn) s = .next t ∧ t.stack = s.stack ++ [s.pc] ∧ t.pc.toNat = nnn.toNat ∧
        t.outcome = some .executed ∧ Frame [] noBytes [.stack] s t) ∧
    (s.cfg.stackLimit = some s.stack.length →
      ∃ t, exec (.call nnn) s = .next t ∧
        FaultedWith s (.stackOverflow s.stack.length) (some (encode (.call nnn))) t)

/-- RET pops the last return address and goes 2 past it, once (R203). a ≤ 4094 is the spec's own condition: the CALL was
fetched at a. -/
def Obligations.RetGoesPastTheCall : Prop :=
  ∀ (s : State) (rest : List Word) (a : Word), s.stack = rest ++ [a] → a.toNat ≤ 4094 →
    ∃ t, exec .ret s = .next t ∧ t.stack = rest ∧ t.pc.toNat = a.toNat + 2 ∧
      t.outcome = some .executed ∧ Frame [] noBytes [.stack] s t

/-- RET with an empty stack faults: nothing changes, pc stays at the RET and the machine halts (R202, R203; the latch is the
spec's decision D13). -/
def Obligations.RetOnEmptyStackFaults : Prop :=
  ∀ s : State, s.stack = [] →
    ∃ t, exec .ret s = .next t ∧ FaultedWith s .stackUnderflow (some 0x00EE) t

/-- A RET on the stack a CALL left returns to the instruction after the CALL, with the stack as it was before the CALL
(R203, R205), whatever ran in between. -/
def Obligations.RetUndoesCall : Prop :=
  ∀ (nnn : Addr12) (s t u : State), s.pc.toNat ≤ 4094 → s.cfg.stackLimit ≠ some s.stack.length →
    exec (.call nnn) s = .next t → u.stack = t.stack →
    ∃ v, exec .ret u = .next v ∧ v.pc.toNat = s.pc.toNat + 2 ∧ v.stack = s.stack ∧ v.V = u.V ∧ v.mem = u.mem

/-! ## Register and ALU instructions -/

/-- LD VX, NN; ADD VX, NN, which wraps modulo 256 and records no carry anywhere; LD VX, VY (R232 to R234). -/
def Obligations.LoadsAndImmediateAdd : Prop :=
  ∀ (x y : Reg) (nn : Byte) (s : State),
    (∃ t, exec (.ldImm x nn) s = .next t ∧ t.getV x = nn ∧ t.pc = s.pc + 2 ∧
      t.outcome = some .executed ∧ Frame [x] noBytes [] s t) ∧
    (∃ t, exec (.addImm x nn) s = .next t ∧ (t.getV x).toNat = ((s.getV x).toNat + nn.toNat) % 256 ∧ t.pc = s.pc + 2 ∧
      t.outcome = some .executed ∧ Frame [x] noBytes [] s t) ∧
    (∃ t, exec (.ldReg x y) s = .next t ∧ t.getV x = s.getV y ∧ t.pc = s.pc + 2 ∧
      t.outcome = some .executed ∧ Frame [x] noBytes [] s t)

/-- OR, AND and XOR combine each bit, and write VF only as their destination (R235 to R237; the last is the spec's decision
D10). -/
def Obligations.LogicWritesOnlyItsDestination : Prop :=
  ∀ (x y : Reg) (s : State),
    (∃ t, exec (.orReg x y) s = .next t ∧
      (∀ k < 8, (t.getV x).getLsbD k = ((s.getV x).getLsbD k || (s.getV y).getLsbD k)) ∧ t.pc = s.pc + 2 ∧
      t.outcome = some .executed ∧ Frame [x] noBytes [] s t) ∧
    (∃ t, exec (.andReg x y) s = .next t ∧
      (∀ k < 8, (t.getV x).getLsbD k = ((s.getV x).getLsbD k && (s.getV y).getLsbD k)) ∧ t.pc = s.pc + 2 ∧
      t.outcome = some .executed ∧ Frame [x] noBytes [] s t) ∧
    (∃ t, exec (.xorReg x y) s = .next t ∧
      (∀ k < 8, (t.getV x).getLsbD k = ((s.getV x).getLsbD k != (s.getV y).getLsbD k)) ∧ t.pc = s.pc + 2 ∧
      t.outcome = some .executed ∧ Frame [x] noBytes [] s t)

/-- ADD, SUB and SUBN of two registers: the exact result modulo 256 and VF = carry, or no borrow, of the operands read at
the start; with X = F the flag is what VF holds (R230, R231, R238, R239, R241; the write order is the spec's decision D9,
SUBN's operand order its passage G4). -/
def Obligations.AddAndSubtractSetTheFlag : Prop :=
  ∀ (x y : Reg) (s : State),
    (∃ t, exec (.addReg x y) s = .next t ∧
      (x ≠ 0xF → (t.getV x).toNat = ((s.getV x).toNat + (s.getV y).toNat) % 256) ∧
      t.getV 0xF = (if (s.getV x).toNat + (s.getV y).toNat > 255 then 1 else 0) ∧ t.pc = s.pc + 2 ∧
      t.outcome = some .executed ∧ Frame [x, 0xF] noBytes [] s t) ∧
    (∃ t, exec (.subReg x y) s = .next t ∧
      (x ≠ 0xF → ((t.getV x).toNat : Int) = ((s.getV x).toNat - (s.getV y).toNat : Int) % 256) ∧
      t.getV 0xF = (if (s.getV x).toNat ≥ (s.getV y).toNat then 1 else 0) ∧ t.pc = s.pc + 2 ∧
      t.outcome = some .executed ∧ Frame [x, 0xF] noBytes [] s t) ∧
    (∃ t, exec (.subnReg x y) s = .next t ∧
      (x ≠ 0xF → ((t.getV x).toNat : Int) = ((s.getV y).toNat - (s.getV x).toNat : Int) % 256) ∧
      t.getV 0xF = (if (s.getV y).toNat ≥ (s.getV x).toNat then 1 else 0) ∧ t.pc = s.pc + 2 ∧
      t.outcome = some .executed ∧ Frame [x, 0xF] noBytes [] s t)

/-- SHR and SHL shift the source V[Y] by one into V[X]; VF is the bit shifted out of the source; with X = F the flag is what
VF holds (R231, R240, R242; that V[Y] is shifted is the spec's decision D8, the write order its decision D9). -/
def Obligations.ShiftsReadTheSourceRegister : Prop :=
  ∀ (x y : Reg) (s : State),
    (∃ t, exec (.shrReg x y) s = .next t ∧
      (x ≠ 0xF → (t.getV x).toNat = (s.getV y).toNat / 2) ∧
      (t.getV 0xF).toNat = (s.getV y).toNat % 2 ∧ t.pc = s.pc + 2 ∧
      t.outcome = some .executed ∧ Frame [x, 0xF] noBytes [] s t) ∧
    (∃ t, exec (.shlReg x y) s = .next t ∧
      (x ≠ 0xF → (t.getV x).toNat = (2 * (s.getV y).toNat) % 256) ∧
      (t.getV 0xF).toNat = (s.getV y).toNat / 128 ∧ t.pc = s.pc + 2 ∧
      t.outcome = some .executed ∧ Frame [x, 0xF] noBytes [] s t)

/-- RND masks the step's free random byte, whatever the byte is, and uses one draw; a zero mask gives zero (R243; that the
byte is free is the spec's decision D4, the count of draws the model's own, log 4). -/
def Obligations.RandomByteIsMasked : Prop :=
  ∀ (x : Reg) (nn : Byte) (s : State),
    ∃ t, exec (.rnd x nn) s = .next t ∧ t.getV x = Config.freeRnd s.draws &&& nn ∧ (nn = 0 → t.getV x = 0) ∧
      t.draws = s.draws + 1 ∧ t.pc = s.pc + 2 ∧ t.outcome = some .executed ∧ Frame [x] noBytes [.draws] s t

/-! ## Index register and memory -/

/-- LD I, NNN and LD F, VX: I is NNN, and V[X] times 5 with the whole register value (R271, R273). -/
def Obligations.IndexLoads : Prop :=
  ∀ (nnn : Addr12) (x : Reg) (s : State),
    (∃ t, exec (.ldI nnn) s = .next t ∧ t.I.toNat = nnn.toNat ∧ t.pc = s.pc + 2 ∧
      t.outcome = some .executed ∧ Frame [] noBytes [.I] s t) ∧
    (∃ t, exec (.ldFV x) s = .next t ∧ t.I.toNat = (s.getV x).toNat * 5 ∧ t.pc = s.pc + 2 ∧
      t.outcome = some .executed ∧ Frame [] noBytes [.I] s t)

/-- ADD I, VX wraps at 16 bits, may pass 4095 without a fault, and writes no flag (R272; the last is the spec's decision
D10). -/
def Obligations.AddToIndexWraps : Prop :=
  ∀ (x : Reg) (s : State),
    ∃ t, exec (.addIV x) s = .next t ∧ t.I.toNat = (s.I.toNat + (s.getV x).toNat) % 65536 ∧ t.pc = s.pc + 2 ∧
      t.outcome = some .executed ∧ Frame [] noBytes [.I] s t

/-- LD B, VX stores the hundreds, tens and ones digits at I, I + 1 and I + 2, and no other byte (R274). -/
def Obligations.DecimalDigitsAreStored : Prop :=
  ∀ (x : Reg) (s : State), s.I.toNat + 2 ≤ 4095 →
    ∃ t, exec (.ldBV x) s = .next t ∧
      (t.readByte s.I.toNat).toNat = (s.getV x).toNat / 100 ∧
      (t.readByte (s.I.toNat + 1)).toNat = (s.getV x).toNat / 10 % 10 ∧
      (t.readByte (s.I.toNat + 2)).toNat = (s.getV x).toNat % 10 ∧
      t.pc = s.pc + 2 ∧ t.outcome = some .executed ∧ Frame [] (byteRange s.I.toNat 3) [] s t

/-- LD [I], VX stores V0 to V[X] at I and up, and no other byte; I is unchanged (R275; the last is the spec's decision
D11). -/
def Obligations.RegistersAreStoredInclusive : Prop :=
  ∀ (x : Reg) (s : State), s.I.toNat + x.toNat ≤ 4095 →
    ∃ t, exec (.storeRegs x) s = .next t ∧
      (∀ k : Reg, k.toNat ≤ x.toNat → t.readByte (s.I.toNat + k.toNat) = s.getV k) ∧
      t.pc = s.pc + 2 ∧ t.outcome = some .executed ∧ Frame [] (byteRange s.I.toNat (x.toNat + 1)) [] s t

/-- LD VX, [I] loads V0 to V[X] from I and up, and no other register; I is unchanged (R276; the last is the spec's decision
D11). -/
def Obligations.RegistersAreLoadedInclusive : Prop :=
  ∀ (x : Reg) (s : State), s.I.toNat + x.toNat ≤ 4095 →
    ∃ t, exec (.loadRegs x) s = .next t ∧
      (∀ k : Reg, k.toNat ≤ x.toNat → t.getV k = s.readByte (s.I.toNat + k.toNat)) ∧
      (∀ k : Reg, x.toNat < k.toNat → t.getV k = s.getV k) ∧
      t.pc = s.pc + 2 ∧ t.outcome = some .executed ∧
      Frame ((List.range (x.toNat + 1)).map (BitVec.ofNat 4)) noBytes [] s t

/-- A data range past 4095 faults before any access, with the first address above 4095 (R87, R270; the check before any
effect is the spec's decision D12). -/
def Obligations.DataPastTheEndFaults : Prop :=
  ∀ (x y : Reg) (n : Nibble) (s : State),
    (s.I.toNat + 2 > 4095 → ∃ t, exec (.ldBV x) s = .next t ∧
      FaultedWith s (.dataOutOfBounds (max s.I.toNat 4096)) (some (encode (.ldBV x))) t) ∧
    (s.I.toNat + x.toNat > 4095 → ∃ t, exec (.storeRegs x) s = .next t ∧
      FaultedWith s (.dataOutOfBounds (max s.I.toNat 4096)) (some (encode (.storeRegs x))) t) ∧
    (s.I.toNat + x.toNat > 4095 → ∃ t, exec (.loadRegs x) s = .next t ∧
      FaultedWith s (.dataOutOfBounds (max s.I.toNat 4096)) (some (encode (.loadRegs x))) t) ∧
    (n ≠ 0 → s.I.toNat + n.toNat - 1 > 4095 → ∃ t, exec (.drw x y n) s = .next t ∧
      FaultedWith s (.dataOutOfBounds (max s.I.toNat 4096)) (some (encode (.drw x y n))) t)

/-- FX55 then FX65 with the same X and I: the stored bytes are read back, so every register is as it was, even if V0 to V[X]
were changed in between (R275, R276; that I is unchanged is the spec's decision D11). -/
def Obligations.StoreThenLoadRestoresRegisters : Prop :=
  ∀ (x : Reg) (s t u : State), s.I.toNat + x.toNat ≤ 4095 → exec (.storeRegs x) s = .next t →
    u.mem = t.mem → u.cfg = t.cfg → u.I = t.I → (∀ k : Reg, x.toNat < k.toNat → u.getV k = t.getV k) →
    ∃ v, exec (.loadRegs x) u = .next v ∧ v.V = s.V ∧ v.outcome = some .executed

/-- Self-modifying code: a word that FX55 stores is the word the next fetch at its address reads (R95; the spec's decision
D21). -/
def Obligations.StoredWordIsFetched : Prop :=
  ∀ (x : Reg) (s t : State), 1 ≤ x.toNat → s.I.toNat + x.toNat ≤ 4095 → exec (.storeRegs x) s = .next t →
    ({ t with pc := s.I } : State).fetch16 = .ok (wordOfBytes (s.getV 0x0) (s.getV 0x1))

/-! ## Display, keys and timers -/

/-- CLS turns every cell off and writes nothing else (R300). -/
def Obligations.ClearTurnsEveryCellOff : Prop :=
  ∀ s : State, ∃ t, exec .cls s = .next t ∧ (∀ px py, t.disp.cell px py = false) ∧ t.pc = s.pc + 2 ∧
    t.outcome = some .executed ∧ Frame [] noBytes [.disp] s t

/-- DRW: every cell is XORed with the sprite bit that lights it, each pixel wrapping on its own, and VF is 1 exactly when a
lit cell was set before; N = 0 draws nothing, reads nothing and clears VF; VF's old value is used as a coordinate (R301; bit
order, N = 0, VF as a coordinate and wrapping are the spec's decisions D17 to D20). -/
def Obligations.DrawXorsTheSprite : Prop :=
  ∀ (x y : Reg) (n : Nibble) (s : State), (n ≠ 0 → s.I.toNat + n.toNat - 1 ≤ 4095) →
    ∃ t, exec (.drw x y n) s = .next t ∧
      (∀ px py, t.disp.cell px py = (s.disp.cell px py ^^
        spriteLights (s.getV x).toNat (s.getV y).toNat (s.readBytes s.I.toNat n.toNat) px py)) ∧
      (t.getV 0xF = if (∃ px py, s.disp.cell px py = true ∧
        spriteLights (s.getV x).toNat (s.getV y).toNat (s.readBytes s.I.toNat n.toNat) px py = true) then 1 else 0) ∧
      t.pc = s.pc + 2 ∧ t.outcome = some .executed ∧ Frame [0xF] noBytes [.disp] s t

/-- Drawing the same sprite twice at the same place restores the display, and the second draw reports VF = 1 exactly when
the first set a pixel (R301's double draw; the source's section 8 property). -/
def Obligations.DrawingTwiceRestoresTheDisplay : Prop :=
  ∀ (x y : Reg) (n : Nibble) (s t : State), x ≠ 0xF → y ≠ 0xF → (n ≠ 0 → s.I.toNat + n.toNat - 1 ≤ 4095) →
    exec (.drw x y n) s = .next t →
    ∃ u, exec (.drw x y n) t = .next u ∧ u.disp = s.disp ∧
      (u.getV 0xF = 1 ↔ ∃ px py, t.disp.cell px py = true ∧ s.disp.cell px py = false)

/-- EX9E skips when the key V[X] is held and EXA1 when it is not; a key index above 15 faults instead (R302 to R304; the
fault is the spec's decision D15). -/
def Obligations.KeySkipsReadTheKey : Prop :=
  ∀ (x : Reg) (s : State),
    (∀ k : Fin 16, (s.getV x).toNat = k.val →
      (∃ t, exec (.skp x) s = .next t ∧ t.pc = (if s.keys[k] = true then s.pc + 4 else s.pc + 2) ∧
        t.outcome = some .executed ∧ Frame [] noBytes [] s t) ∧
      (∃ t, exec (.sknp x) s = .next t ∧ t.pc = (if s.keys[k] = true then s.pc + 2 else s.pc + 4) ∧
        t.outcome = some .executed ∧ Frame [] noBytes [] s t)) ∧
    ((s.getV x).toNat > 15 →
      (∃ t, exec (.skp x) s = .next t ∧ FaultedWith s (.keyIndexOutOfRange (s.getV x)) (some (encode (.skp x))) t) ∧
      (∃ t, exec (.sknp x) s = .next t ∧ FaultedWith s (.keyIndexOutOfRange (s.getV x)) (some (encode (.sknp x))) t))

/-- FX0A: the lowest held key is stored and pc advances; while none is held nothing changes and the step reports Waiting
(R306). -/
def Obligations.WaitForKeyTakesTheLowest : Prop :=
  ∀ (x : Reg) (s : State),
    (∀ k : Fin 16, s.keys[k] = true → (∀ j : Fin 16, j < k → s.keys[j] = false) →
      ∃ t, exec (.ldVK x) s = .next t ∧ (t.getV x).toNat = k.val ∧ t.pc = s.pc + 2 ∧
        t.outcome = some .executed ∧ Frame [x] noBytes [] s t) ∧
    ((∀ k : Fin 16, s.keys[k] = false) →
      ∃ t, exec (.ldVK x) s = .next t ∧ t = { s with outcome := some .waiting })

/-- FX07 reads DT, FX15 writes it, FX18 writes ST, which the signal sound_on follows (R305, R307, R308, R411). -/
def Obligations.TimerInstructionsMoveTheirTimer : Prop :=
  ∀ (x : Reg) (s : State),
    (∃ t, exec (.ldVDT x) s = .next t ∧ t.getV x = s.DT ∧ t.pc = s.pc + 2 ∧
      t.outcome = some .executed ∧ Frame [x] noBytes [] s t) ∧
    (∃ t, exec (.ldDTV x) s = .next t ∧ t.DT = s.getV x ∧ t.pc = s.pc + 2 ∧
      t.outcome = some .executed ∧ Frame [] noBytes [.DT] s t) ∧
    (∃ t, exec (.ldSTV x) s = .next t ∧ t.ST = s.getV x ∧ (soundOn t = true ↔ s.getV x ≠ 0) ∧ t.pc = s.pc + 2 ∧
      t.outcome = some .executed ∧ Frame [] noBytes [.ST] s t)

/-! ## The host's operations -/

/-- What construction leaves: FONT at 0x000 to 0x04F, zero in the rest of memory and in every register, pc at 0x200, an empty
stack, a blank display, no key held, the latch clear, phase Constructed (R500; the latch and the phase are the spec's
decisions D13 and D23). -/
def Obligations.ConstructionValues : Prop :=
  ∀ cfg : Config,
    (∀ k : Fin 80, (State.construct cfg).readByte k.val = cfg.font[k]) ∧
    (∀ a, 0x050 ≤ a → a ≤ 0xFFF → (State.construct cfg).readByte a = 0x00) ∧
    (∀ r, (State.construct cfg).getV r = 0x00) ∧ (State.construct cfg).pc = 0x200 ∧ (State.construct cfg).I = 0x0000 ∧
    (State.construct cfg).stack = [] ∧ (State.construct cfg).DT = 0 ∧ (State.construct cfg).ST = 0 ∧
    (∀ px py, (State.construct cfg).disp.cell px py = false) ∧ (∀ k : Fin 16, (State.construct cfg).keys[k] = false) ∧
    (State.construct cfg).halt = none ∧ (State.construct cfg).phase = .constructed

/-- Each timer goes down by exactly 1 when it is not 0, and stays at 0; nothing else changes, in every phase and on a halted
machine too (R410). -/
def Obligations.TickLowersEachTimer : Prop :=
  ∀ s : State,
    (tickTimers s).DT.toNat = s.DT.toNat - 1 ∧ (tickTimers s).ST.toNat = s.ST.toNat - 1 ∧
    tickTimers s = { s with DT := (tickTimers s).DT, ST := (tickTimers s).ST }

/-- set_key changes the one key it names, and rejects an index above 15 with no change (R413; the rejection is the spec's
decision D23). -/
def Obligations.SetKeyChangesOneKey : Prop :=
  ∀ (s : State) (index : Nat) (pressed : Bool),
    (index ≤ 15 → ∃ t, setKey index pressed s = (t, .ok) ∧ t = { s with keys := t.keys } ∧
      ∀ k : Fin 16, t.keys[k] = if k.val = index then pressed else s.keys[k]) ∧
    (index > 15 → setKey index pressed s = (s, .rejected))

/-- load_program: an image that fits is copied verbatim to 0x200 and up and nothing else in memory changes; a longer one is a
LoadError that changes nothing; a second load is refused (R502, R415; the phase is the spec's decision D23). -/
def Obligations.LoadCopiesTheImage : Prop :=
  ∀ (s : State) (b : List Byte),
    (s.phase = .constructed → b.length ≤ 3584 → ∃ t, loadProgram b s = .next (t, .ok) ∧
      (∀ (k : Nat) (h : k < b.length), t.readByte (0x200 + k) = b[k]) ∧
      (∀ a, ¬ byteRange 0x200 b.length a → t.readByte a = s.readByte a) ∧
      t = { s with mem := t.mem, phase := .loaded }) ∧
    (s.phase = .constructed → b.length > 3584 → loadProgram b s = .next (s, .loadError)) ∧
    (s.phase = .loaded → loadProgram b s = .refused .loadAfterLoad)

/-- From construction, after one load, the first step runs the instruction of the image's first two bytes (R501: "The first
instruction executed is the word at 0x200"). -/
def Obligations.FirstInstructionIsAtTheEntryPoint : Prop :=
  ∀ (cfg : Config) (hi lo : Byte) (rest : List Byte) (i : Instr), (hi :: lo :: rest).length ≤ 3584 →
    decodeBytes [hi, lo] = .ok (i, []) →
    ∃ t, HostOp.apply (.load (hi :: lo :: rest)) (State.construct cfg) = .next t ∧ t.pc = 0x200 ∧
      runSchedule [.load (hi :: lo :: rest), .step] (State.construct cfg) = exec i t
end

