-- ==== Sys2Proof/Laws/Decode.lean ====
section
/-! SUPPORT. Laws/Decode.lean: every field of every packed word, and a word as the packing of its fields (R111). -/

namespace Sys2Proof

/-! ## The bits of a packed word -/

theorem packXNN_getLsbD (c x : BitVec 4) (nn : Byte) (k : Nat) : (packXNN c x nn).getLsbD k =
    if k < 8 then nn.getLsbD k else if k - 8 < 4 then x.getLsbD (k - 8) else c.getLsbD (k - 8 - 4) := by
  show BitVec.getLsbD (w := 4 + 4 + 8) (c ++ x ++ nn) k = _
  rw [BitVec.getLsbD_append, BitVec.getLsbD_append]

theorem packXYN_getLsbD (c x y n : BitVec 4) (k : Nat) : (packXYN c x y n).getLsbD k =
    if k < 4 then n.getLsbD k else if k - 4 < 4 then y.getLsbD (k - 4)
    else if k - 4 - 4 < 4 then x.getLsbD (k - 4 - 4) else c.getLsbD (k - 4 - 4 - 4) := by
  show BitVec.getLsbD (w := 4 + 4 + 4 + 4) (c ++ x ++ y ++ n) k = _
  rw [BitVec.getLsbD_append, BitVec.getLsbD_append, BitVec.getLsbD_append]

theorem packNNN_getLsbD (c : BitVec 4) (nnn : Addr12) (k : Nat) : (packNNN c nnn).getLsbD k =
    if k < 12 then nnn.getLsbD k else c.getLsbD (k - 12) :=
  BitVec.getLsbD_append (x := c) (y := nnn) (i := k)

/-! ## The fields of a packed word -/

@[simp] theorem fieldClass_packXNN (c x : BitVec 4) (nn : Byte) : fieldClass (packXNN c x nn) = c := by
  apply BitVec.eq_of_getLsbD_eq
  intro k hk
  simp only [fieldClass, BitVec.getLsbD_extractLsb', packXNN_getLsbD]
  interval_cases k <;> simp

@[simp] theorem fieldX_packXNN (c x : BitVec 4) (nn : Byte) : fieldX (packXNN c x nn) = x := by
  apply BitVec.eq_of_getLsbD_eq
  intro k hk
  simp only [fieldX, BitVec.getLsbD_extractLsb', packXNN_getLsbD]
  interval_cases k <;> simp

@[simp] theorem fieldNN_packXNN (c x : BitVec 4) (nn : Byte) : fieldNN (packXNN c x nn) = nn := by
  apply BitVec.eq_of_getLsbD_eq
  intro k hk
  simp only [fieldNN, BitVec.getLsbD_extractLsb', packXNN_getLsbD]
  interval_cases k <;> simp

@[simp] theorem fieldClass_packXYN (c x y n : BitVec 4) : fieldClass (packXYN c x y n) = c := by
  apply BitVec.eq_of_getLsbD_eq
  intro k hk
  simp only [fieldClass, BitVec.getLsbD_extractLsb', packXYN_getLsbD]
  interval_cases k <;> simp

@[simp] theorem fieldX_packXYN (c x y n : BitVec 4) : fieldX (packXYN c x y n) = x := by
  apply BitVec.eq_of_getLsbD_eq
  intro k hk
  simp only [fieldX, BitVec.getLsbD_extractLsb', packXYN_getLsbD]
  interval_cases k <;> simp

@[simp] theorem fieldY_packXYN (c x y n : BitVec 4) : fieldY (packXYN c x y n) = y := by
  apply BitVec.eq_of_getLsbD_eq
  intro k hk
  simp only [fieldY, BitVec.getLsbD_extractLsb', packXYN_getLsbD]
  interval_cases k <;> simp

@[simp] theorem fieldN_packXYN (c x y n : BitVec 4) : fieldN (packXYN c x y n) = n := by
  apply BitVec.eq_of_getLsbD_eq
  intro k hk
  simp only [fieldN, BitVec.getLsbD_extractLsb', packXYN_getLsbD]
  interval_cases k <;> simp

@[simp] theorem fieldClass_packNNN (c : BitVec 4) (nnn : Addr12) : fieldClass (packNNN c nnn) = c := by
  apply BitVec.eq_of_getLsbD_eq
  intro k hk
  simp only [fieldClass, BitVec.getLsbD_extractLsb', packNNN_getLsbD]
  interval_cases k <;> simp

@[simp] theorem fieldNNN_packNNN (c : BitVec 4) (nnn : Addr12) : fieldNNN (packNNN c nnn) = nnn := by
  apply BitVec.eq_of_getLsbD_eq
  intro k hk
  simp only [fieldNNN, BitVec.getLsbD_extractLsb', packNNN_getLsbD]
  interval_cases k <;> simp

/-! ## A word as the packing of its fields -/

theorem packXNN_fields (w : Word) : packXNN (fieldClass w) (fieldX w) (fieldNN w) = w := by
  apply BitVec.eq_of_getLsbD_eq
  intro k hk
  simp only [fieldClass, fieldX, fieldNN, BitVec.getLsbD_extractLsb', packXNN_getLsbD]
  interval_cases k <;> simp

theorem packXYN_fields (w : Word) : packXYN (fieldClass w) (fieldX w) (fieldY w) (fieldN w) = w := by
  apply BitVec.eq_of_getLsbD_eq
  intro k hk
  simp only [fieldClass, fieldX, fieldY, fieldN, BitVec.getLsbD_extractLsb', packXYN_getLsbD]
  interval_cases k <;> simp

theorem packNNN_fields (w : Word) : packNNN (fieldClass w) (fieldNNN w) = w := by
  apply BitVec.eq_of_getLsbD_eq
  intro k hk
  simp only [fieldClass, fieldNNN, BitVec.getLsbD_extractLsb', packNNN_getLsbD]
  interval_cases k <;> simp

/-! ## A packed word under the masks of R114 -/

theorem packXNN_and_F000 (c x : BitVec 4) (nn : Byte) : packXNN c x nn &&& 0xF000 = packXNN c 0 0 := by
  apply BitVec.eq_of_getLsbD_eq
  intro k hk
  simp only [BitVec.getLsbD_and, packXNN_getLsbD]
  interval_cases k <;> simp

theorem packXNN_and_F0FF (c x : BitVec 4) (nn : Byte) : packXNN c x nn &&& 0xF0FF = packXNN c 0 nn := by
  apply BitVec.eq_of_getLsbD_eq
  intro k hk
  simp only [BitVec.getLsbD_and, packXNN_getLsbD]
  interval_cases k <;> simp

theorem packXYN_and_F000 (c x y n : BitVec 4) : packXYN c x y n &&& 0xF000 = packXYN c 0 0 0 := by
  apply BitVec.eq_of_getLsbD_eq
  intro k hk
  simp only [BitVec.getLsbD_and, packXYN_getLsbD]
  interval_cases k <;> simp

theorem packXYN_and_F00F (c x y n : BitVec 4) : packXYN c x y n &&& 0xF00F = packXYN c 0 0 n := by
  apply BitVec.eq_of_getLsbD_eq
  intro k hk
  simp only [BitVec.getLsbD_and, packXYN_getLsbD]
  interval_cases k <;> simp

theorem packNNN_and_F000 (c : BitVec 4) (nnn : Addr12) : packNNN c nnn &&& 0xF000 = packNNN c 0 := by
  apply BitVec.eq_of_getLsbD_eq
  intro k hk
  simp only [BitVec.getLsbD_and, packNNN_getLsbD]
  interval_cases k <;> simp

/-! ## The bytes of a word -/

/-- Two bytes in memory order are the word they stand for (R85). -/
@[simp] theorem wordOfBytes_bytesOfWord (w : Word) : wordOfBytes (w.extractLsb' 8 8) (w.extractLsb' 0 8) = w := by
  apply BitVec.eq_of_getLsbD_eq
  intro k hk
  show BitVec.getLsbD (w := 8 + 8) (w.extractLsb' 8 8 ++ w.extractLsb' 0 8) k = _
  rw [BitVec.getLsbD_append]
  interval_cases k <;> simp

end Sys2Proof
end

