-- ==== Sys2Proof/Laws/Display.lean ====
section
/-! SUPPORT. Laws/Display.lean: what a cell read sees of a flip and of one sprite bit (R37, R301). -/

namespace Sys2Proof.Machine

/-- A flip inverts its cell and no other. -/
theorem Display.cell_flip (d : Display) (x px : Fin 64) (y py : Fin 32) :
    (d.flip x y).cell px py = if y = py ∧ x = px then !d.cell x y else d.cell px py := by
  simp only [Display.cell, Display.flip, Vector.getElem_set]
  by_cases hy : y = py
  · subst hy
    by_cases hx : x = px
    · subst hx
      simp
    · simp [hx, Fin.val_inj]
  · simp [hy, Fin.val_inj]

/-- Every cell of the blank display is off. -/
@[simp] theorem Display.cell_blank (px : Fin 64) (py : Fin 32) : Display.blank.cell px py = false := by
  simp [Display.cell, Display.blank]

/-- Displays whose cells agree are equal. -/
theorem Display.ext_cell {d e : Display} (h : ∀ px py, d.cell px py = e.cell px py) : d = e := by
  apply Vector.ext
  intro y hy
  apply Vector.ext
  intro x hx
  exact h ⟨x, hx⟩ ⟨y, hy⟩

/-- One sprite bit flips its wrapped cell and notes a hit when that cell was on (R301). -/
theorem plot_fst (x y : Nat) (d : Display × Bool) :
    (plot x y d).1 = d.1.flip (Fin.ofNat 64 x) (Fin.ofNat 32 y) := rfl

theorem plot_snd (x y : Nat) (d : Display × Bool) :
    (plot x y d).2 = (d.2 || d.1.cell (Fin.ofNat 64 x) (Fin.ofNat 32 y)) := rfl

end Sys2Proof.Machine
end

