-- ==== Sys2Proof/Laws/State.lean ====
section
/-! SUPPORT. Laws/State.lean: one lemma per field per update, and what the two readers, `getV` and `readByte`, see of each
update. -/

namespace Sys2Proof.Machine

@[simp] theorem State.setV_mem (s : State) (r : Reg) (v : Byte) : (s.setV r v).mem = s.mem := rfl
@[simp] theorem State.setV_V (s : State) (r : Reg) (v : Byte) : (s.setV r v).V = s.V.set r.toNat v r.isLt := rfl
@[simp] theorem State.setV_pc (s : State) (r : Reg) (v : Byte) : (s.setV r v).pc = s.pc := rfl
@[simp] theorem State.setV_I (s : State) (r : Reg) (v : Byte) : (s.setV r v).I = s.I := rfl
@[simp] theorem State.setV_stack (s : State) (r : Reg) (v : Byte) : (s.setV r v).stack = s.stack := rfl
@[simp] theorem State.setV_DT (s : State) (r : Reg) (v : Byte) : (s.setV r v).DT = s.DT := rfl
@[simp] theorem State.setV_ST (s : State) (r : Reg) (v : Byte) : (s.setV r v).ST = s.ST := rfl
@[simp] theorem State.setV_disp (s : State) (r : Reg) (v : Byte) : (s.setV r v).disp = s.disp := rfl
@[simp] theorem State.setV_keys (s : State) (r : Reg) (v : Byte) : (s.setV r v).keys = s.keys := rfl
@[simp] theorem State.setV_halt (s : State) (r : Reg) (v : Byte) : (s.setV r v).halt = s.halt := rfl
@[simp] theorem State.setV_phase (s : State) (r : Reg) (v : Byte) : (s.setV r v).phase = s.phase := rfl
@[simp] theorem State.setV_cfg (s : State) (r : Reg) (v : Byte) : (s.setV r v).cfg = s.cfg := rfl
@[simp] theorem State.setV_draws (s : State) (r : Reg) (v : Byte) : (s.setV r v).draws = s.draws := rfl
@[simp] theorem State.setV_outcome (s : State) (r : Reg) (v : Byte) : (s.setV r v).outcome = s.outcome := rfl
@[simp] theorem State.setV_readByte (s : State) (r : Reg) (v : Byte) (q : Nat) : (s.setV r v).readByte q = s.readByte q := rfl

@[simp] theorem State.setPc_mem (s : State) (v : Word) : (s.setPc v).mem = s.mem := rfl
@[simp] theorem State.setPc_V (s : State) (v : Word) : (s.setPc v).V = s.V := rfl
@[simp] theorem State.setPc_pc (s : State) (v : Word) : (s.setPc v).pc = v := rfl
@[simp] theorem State.setPc_I (s : State) (v : Word) : (s.setPc v).I = s.I := rfl
@[simp] theorem State.setPc_stack (s : State) (v : Word) : (s.setPc v).stack = s.stack := rfl
@[simp] theorem State.setPc_DT (s : State) (v : Word) : (s.setPc v).DT = s.DT := rfl
@[simp] theorem State.setPc_ST (s : State) (v : Word) : (s.setPc v).ST = s.ST := rfl
@[simp] theorem State.setPc_disp (s : State) (v : Word) : (s.setPc v).disp = s.disp := rfl
@[simp] theorem State.setPc_keys (s : State) (v : Word) : (s.setPc v).keys = s.keys := rfl
@[simp] theorem State.setPc_halt (s : State) (v : Word) : (s.setPc v).halt = s.halt := rfl
@[simp] theorem State.setPc_phase (s : State) (v : Word) : (s.setPc v).phase = s.phase := rfl
@[simp] theorem State.setPc_cfg (s : State) (v : Word) : (s.setPc v).cfg = s.cfg := rfl
@[simp] theorem State.setPc_draws (s : State) (v : Word) : (s.setPc v).draws = s.draws := rfl
@[simp] theorem State.setPc_outcome (s : State) (v : Word) : (s.setPc v).outcome = s.outcome := rfl
@[simp] theorem State.setPc_getV (s : State) (v : Word) (q : Reg) : (s.setPc v).getV q = s.getV q := rfl
@[simp] theorem State.setPc_readByte (s : State) (v : Word) (q : Nat) : (s.setPc v).readByte q = s.readByte q := rfl

@[simp] theorem State.setI_mem (s : State) (v : Word) : (s.setI v).mem = s.mem := rfl
@[simp] theorem State.setI_V (s : State) (v : Word) : (s.setI v).V = s.V := rfl
@[simp] theorem State.setI_pc (s : State) (v : Word) : (s.setI v).pc = s.pc := rfl
@[simp] theorem State.setI_I (s : State) (v : Word) : (s.setI v).I = v := rfl
@[simp] theorem State.setI_stack (s : State) (v : Word) : (s.setI v).stack = s.stack := rfl
@[simp] theorem State.setI_DT (s : State) (v : Word) : (s.setI v).DT = s.DT := rfl
@[simp] theorem State.setI_ST (s : State) (v : Word) : (s.setI v).ST = s.ST := rfl
@[simp] theorem State.setI_disp (s : State) (v : Word) : (s.setI v).disp = s.disp := rfl
@[simp] theorem State.setI_keys (s : State) (v : Word) : (s.setI v).keys = s.keys := rfl
@[simp] theorem State.setI_halt (s : State) (v : Word) : (s.setI v).halt = s.halt := rfl
@[simp] theorem State.setI_phase (s : State) (v : Word) : (s.setI v).phase = s.phase := rfl
@[simp] theorem State.setI_cfg (s : State) (v : Word) : (s.setI v).cfg = s.cfg := rfl
@[simp] theorem State.setI_draws (s : State) (v : Word) : (s.setI v).draws = s.draws := rfl
@[simp] theorem State.setI_outcome (s : State) (v : Word) : (s.setI v).outcome = s.outcome := rfl
@[simp] theorem State.setI_getV (s : State) (v : Word) (q : Reg) : (s.setI v).getV q = s.getV q := rfl
@[simp] theorem State.setI_readByte (s : State) (v : Word) (q : Nat) : (s.setI v).readByte q = s.readByte q := rfl

@[simp] theorem State.setDT_mem (s : State) (v : Byte) : (s.setDT v).mem = s.mem := rfl
@[simp] theorem State.setDT_V (s : State) (v : Byte) : (s.setDT v).V = s.V := rfl
@[simp] theorem State.setDT_pc (s : State) (v : Byte) : (s.setDT v).pc = s.pc := rfl
@[simp] theorem State.setDT_I (s : State) (v : Byte) : (s.setDT v).I = s.I := rfl
@[simp] theorem State.setDT_stack (s : State) (v : Byte) : (s.setDT v).stack = s.stack := rfl
@[simp] theorem State.setDT_DT (s : State) (v : Byte) : (s.setDT v).DT = v := rfl
@[simp] theorem State.setDT_ST (s : State) (v : Byte) : (s.setDT v).ST = s.ST := rfl
@[simp] theorem State.setDT_disp (s : State) (v : Byte) : (s.setDT v).disp = s.disp := rfl
@[simp] theorem State.setDT_keys (s : State) (v : Byte) : (s.setDT v).keys = s.keys := rfl
@[simp] theorem State.setDT_halt (s : State) (v : Byte) : (s.setDT v).halt = s.halt := rfl
@[simp] theorem State.setDT_phase (s : State) (v : Byte) : (s.setDT v).phase = s.phase := rfl
@[simp] theorem State.setDT_cfg (s : State) (v : Byte) : (s.setDT v).cfg = s.cfg := rfl
@[simp] theorem State.setDT_draws (s : State) (v : Byte) : (s.setDT v).draws = s.draws := rfl
@[simp] theorem State.setDT_outcome (s : State) (v : Byte) : (s.setDT v).outcome = s.outcome := rfl
@[simp] theorem State.setDT_getV (s : State) (v : Byte) (q : Reg) : (s.setDT v).getV q = s.getV q := rfl
@[simp] theorem State.setDT_readByte (s : State) (v : Byte) (q : Nat) : (s.setDT v).readByte q = s.readByte q := rfl

@[simp] theorem State.setST_mem (s : State) (v : Byte) : (s.setST v).mem = s.mem := rfl
@[simp] theorem State.setST_V (s : State) (v : Byte) : (s.setST v).V = s.V := rfl
@[simp] theorem State.setST_pc (s : State) (v : Byte) : (s.setST v).pc = s.pc := rfl
@[simp] theorem State.setST_I (s : State) (v : Byte) : (s.setST v).I = s.I := rfl
@[simp] theorem State.setST_stack (s : State) (v : Byte) : (s.setST v).stack = s.stack := rfl
@[simp] theorem State.setST_DT (s : State) (v : Byte) : (s.setST v).DT = s.DT := rfl
@[simp] theorem State.setST_ST (s : State) (v : Byte) : (s.setST v).ST = v := rfl
@[simp] theorem State.setST_disp (s : State) (v : Byte) : (s.setST v).disp = s.disp := rfl
@[simp] theorem State.setST_keys (s : State) (v : Byte) : (s.setST v).keys = s.keys := rfl
@[simp] theorem State.setST_halt (s : State) (v : Byte) : (s.setST v).halt = s.halt := rfl
@[simp] theorem State.setST_phase (s : State) (v : Byte) : (s.setST v).phase = s.phase := rfl
@[simp] theorem State.setST_cfg (s : State) (v : Byte) : (s.setST v).cfg = s.cfg := rfl
@[simp] theorem State.setST_draws (s : State) (v : Byte) : (s.setST v).draws = s.draws := rfl
@[simp] theorem State.setST_outcome (s : State) (v : Byte) : (s.setST v).outcome = s.outcome := rfl
@[simp] theorem State.setST_getV (s : State) (v : Byte) (q : Reg) : (s.setST v).getV q = s.getV q := rfl
@[simp] theorem State.setST_readByte (s : State) (v : Byte) (q : Nat) : (s.setST v).readByte q = s.readByte q := rfl

@[simp] theorem State.setStack_mem (s : State) (v : List Word) : (s.setStack v).mem = s.mem := rfl
@[simp] theorem State.setStack_V (s : State) (v : List Word) : (s.setStack v).V = s.V := rfl
@[simp] theorem State.setStack_pc (s : State) (v : List Word) : (s.setStack v).pc = s.pc := rfl
@[simp] theorem State.setStack_I (s : State) (v : List Word) : (s.setStack v).I = s.I := rfl
@[simp] theorem State.setStack_stack (s : State) (v : List Word) : (s.setStack v).stack = v := rfl
@[simp] theorem State.setStack_DT (s : State) (v : List Word) : (s.setStack v).DT = s.DT := rfl
@[simp] theorem State.setStack_ST (s : State) (v : List Word) : (s.setStack v).ST = s.ST := rfl
@[simp] theorem State.setStack_disp (s : State) (v : List Word) : (s.setStack v).disp = s.disp := rfl
@[simp] theorem State.setStack_keys (s : State) (v : List Word) : (s.setStack v).keys = s.keys := rfl
@[simp] theorem State.setStack_halt (s : State) (v : List Word) : (s.setStack v).halt = s.halt := rfl
@[simp] theorem State.setStack_phase (s : State) (v : List Word) : (s.setStack v).phase = s.phase := rfl
@[simp] theorem State.setStack_cfg (s : State) (v : List Word) : (s.setStack v).cfg = s.cfg := rfl
@[simp] theorem State.setStack_draws (s : State) (v : List Word) : (s.setStack v).draws = s.draws := rfl
@[simp] theorem State.setStack_outcome (s : State) (v : List Word) : (s.setStack v).outcome = s.outcome := rfl
@[simp] theorem State.setStack_getV (s : State) (v : List Word) (q : Reg) : (s.setStack v).getV q = s.getV q := rfl
@[simp] theorem State.setStack_readByte (s : State) (v : List Word) (q : Nat) : (s.setStack v).readByte q = s.readByte q := rfl

@[simp] theorem State.setDisp_mem (s : State) (v : Display) : (s.setDisp v).mem = s.mem := rfl
@[simp] theorem State.setDisp_V (s : State) (v : Display) : (s.setDisp v).V = s.V := rfl
@[simp] theorem State.setDisp_pc (s : State) (v : Display) : (s.setDisp v).pc = s.pc := rfl
@[simp] theorem State.setDisp_I (s : State) (v : Display) : (s.setDisp v).I = s.I := rfl
@[simp] theorem State.setDisp_stack (s : State) (v : Display) : (s.setDisp v).stack = s.stack := rfl
@[simp] theorem State.setDisp_DT (s : State) (v : Display) : (s.setDisp v).DT = s.DT := rfl
@[simp] theorem State.setDisp_ST (s : State) (v : Display) : (s.setDisp v).ST = s.ST := rfl
@[simp] theorem State.setDisp_disp (s : State) (v : Display) : (s.setDisp v).disp = v := rfl
@[simp] theorem State.setDisp_keys (s : State) (v : Display) : (s.setDisp v).keys = s.keys := rfl
@[simp] theorem State.setDisp_halt (s : State) (v : Display) : (s.setDisp v).halt = s.halt := rfl
@[simp] theorem State.setDisp_phase (s : State) (v : Display) : (s.setDisp v).phase = s.phase := rfl
@[simp] theorem State.setDisp_cfg (s : State) (v : Display) : (s.setDisp v).cfg = s.cfg := rfl
@[simp] theorem State.setDisp_draws (s : State) (v : Display) : (s.setDisp v).draws = s.draws := rfl
@[simp] theorem State.setDisp_outcome (s : State) (v : Display) : (s.setDisp v).outcome = s.outcome := rfl
@[simp] theorem State.setDisp_getV (s : State) (v : Display) (q : Reg) : (s.setDisp v).getV q = s.getV q := rfl
@[simp] theorem State.setDisp_readByte (s : State) (v : Display) (q : Nat) : (s.setDisp v).readByte q = s.readByte q := rfl

@[simp] theorem State.setKeys_mem (s : State) (v : Vector Bool 16) : (s.setKeys v).mem = s.mem := rfl
@[simp] theorem State.setKeys_V (s : State) (v : Vector Bool 16) : (s.setKeys v).V = s.V := rfl
@[simp] theorem State.setKeys_pc (s : State) (v : Vector Bool 16) : (s.setKeys v).pc = s.pc := rfl
@[simp] theorem State.setKeys_I (s : State) (v : Vector Bool 16) : (s.setKeys v).I = s.I := rfl
@[simp] theorem State.setKeys_stack (s : State) (v : Vector Bool 16) : (s.setKeys v).stack = s.stack := rfl
@[simp] theorem State.setKeys_DT (s : State) (v : Vector Bool 16) : (s.setKeys v).DT = s.DT := rfl
@[simp] theorem State.setKeys_ST (s : State) (v : Vector Bool 16) : (s.setKeys v).ST = s.ST := rfl
@[simp] theorem State.setKeys_disp (s : State) (v : Vector Bool 16) : (s.setKeys v).disp = s.disp := rfl
@[simp] theorem State.setKeys_keys (s : State) (v : Vector Bool 16) : (s.setKeys v).keys = v := rfl
@[simp] theorem State.setKeys_halt (s : State) (v : Vector Bool 16) : (s.setKeys v).halt = s.halt := rfl
@[simp] theorem State.setKeys_phase (s : State) (v : Vector Bool 16) : (s.setKeys v).phase = s.phase := rfl
@[simp] theorem State.setKeys_cfg (s : State) (v : Vector Bool 16) : (s.setKeys v).cfg = s.cfg := rfl
@[simp] theorem State.setKeys_draws (s : State) (v : Vector Bool 16) : (s.setKeys v).draws = s.draws := rfl
@[simp] theorem State.setKeys_outcome (s : State) (v : Vector Bool 16) : (s.setKeys v).outcome = s.outcome := rfl
@[simp] theorem State.setKeys_getV (s : State) (v : Vector Bool 16) (q : Reg) : (s.setKeys v).getV q = s.getV q := rfl
@[simp] theorem State.setKeys_readByte (s : State) (v : Vector Bool 16) (q : Nat) : (s.setKeys v).readByte q = s.readByte q := rfl

@[simp] theorem State.setHalt_mem (s : State) (v : Option FaultRecord) : (s.setHalt v).mem = s.mem := rfl
@[simp] theorem State.setHalt_V (s : State) (v : Option FaultRecord) : (s.setHalt v).V = s.V := rfl
@[simp] theorem State.setHalt_pc (s : State) (v : Option FaultRecord) : (s.setHalt v).pc = s.pc := rfl
@[simp] theorem State.setHalt_I (s : State) (v : Option FaultRecord) : (s.setHalt v).I = s.I := rfl
@[simp] theorem State.setHalt_stack (s : State) (v : Option FaultRecord) : (s.setHalt v).stack = s.stack := rfl
@[simp] theorem State.setHalt_DT (s : State) (v : Option FaultRecord) : (s.setHalt v).DT = s.DT := rfl
@[simp] theorem State.setHalt_ST (s : State) (v : Option FaultRecord) : (s.setHalt v).ST = s.ST := rfl
@[simp] theorem State.setHalt_disp (s : State) (v : Option FaultRecord) : (s.setHalt v).disp = s.disp := rfl
@[simp] theorem State.setHalt_keys (s : State) (v : Option FaultRecord) : (s.setHalt v).keys = s.keys := rfl
@[simp] theorem State.setHalt_halt (s : State) (v : Option FaultRecord) : (s.setHalt v).halt = v := rfl
@[simp] theorem State.setHalt_phase (s : State) (v : Option FaultRecord) : (s.setHalt v).phase = s.phase := rfl
@[simp] theorem State.setHalt_cfg (s : State) (v : Option FaultRecord) : (s.setHalt v).cfg = s.cfg := rfl
@[simp] theorem State.setHalt_draws (s : State) (v : Option FaultRecord) : (s.setHalt v).draws = s.draws := rfl
@[simp] theorem State.setHalt_outcome (s : State) (v : Option FaultRecord) : (s.setHalt v).outcome = s.outcome := rfl
@[simp] theorem State.setHalt_getV (s : State) (v : Option FaultRecord) (q : Reg) : (s.setHalt v).getV q = s.getV q := rfl
@[simp] theorem State.setHalt_readByte (s : State) (v : Option FaultRecord) (q : Nat) : (s.setHalt v).readByte q = s.readByte q := rfl

@[simp] theorem State.setPhase_mem (s : State) (v : Phase) : (s.setPhase v).mem = s.mem := rfl
@[simp] theorem State.setPhase_V (s : State) (v : Phase) : (s.setPhase v).V = s.V := rfl
@[simp] theorem State.setPhase_pc (s : State) (v : Phase) : (s.setPhase v).pc = s.pc := rfl
@[simp] theorem State.setPhase_I (s : State) (v : Phase) : (s.setPhase v).I = s.I := rfl
@[simp] theorem State.setPhase_stack (s : State) (v : Phase) : (s.setPhase v).stack = s.stack := rfl
@[simp] theorem State.setPhase_DT (s : State) (v : Phase) : (s.setPhase v).DT = s.DT := rfl
@[simp] theorem State.setPhase_ST (s : State) (v : Phase) : (s.setPhase v).ST = s.ST := rfl
@[simp] theorem State.setPhase_disp (s : State) (v : Phase) : (s.setPhase v).disp = s.disp := rfl
@[simp] theorem State.setPhase_keys (s : State) (v : Phase) : (s.setPhase v).keys = s.keys := rfl
@[simp] theorem State.setPhase_halt (s : State) (v : Phase) : (s.setPhase v).halt = s.halt := rfl
@[simp] theorem State.setPhase_phase (s : State) (v : Phase) : (s.setPhase v).phase = v := rfl
@[simp] theorem State.setPhase_cfg (s : State) (v : Phase) : (s.setPhase v).cfg = s.cfg := rfl
@[simp] theorem State.setPhase_draws (s : State) (v : Phase) : (s.setPhase v).draws = s.draws := rfl
@[simp] theorem State.setPhase_outcome (s : State) (v : Phase) : (s.setPhase v).outcome = s.outcome := rfl
@[simp] theorem State.setPhase_getV (s : State) (v : Phase) (q : Reg) : (s.setPhase v).getV q = s.getV q := rfl
@[simp] theorem State.setPhase_readByte (s : State) (v : Phase) (q : Nat) : (s.setPhase v).readByte q = s.readByte q := rfl

@[simp] theorem State.countDraw_mem (s : State) : (s.countDraw).mem = s.mem := rfl
@[simp] theorem State.countDraw_V (s : State) : (s.countDraw).V = s.V := rfl
@[simp] theorem State.countDraw_pc (s : State) : (s.countDraw).pc = s.pc := rfl
@[simp] theorem State.countDraw_I (s : State) : (s.countDraw).I = s.I := rfl
@[simp] theorem State.countDraw_stack (s : State) : (s.countDraw).stack = s.stack := rfl
@[simp] theorem State.countDraw_DT (s : State) : (s.countDraw).DT = s.DT := rfl
@[simp] theorem State.countDraw_ST (s : State) : (s.countDraw).ST = s.ST := rfl
@[simp] theorem State.countDraw_disp (s : State) : (s.countDraw).disp = s.disp := rfl
@[simp] theorem State.countDraw_keys (s : State) : (s.countDraw).keys = s.keys := rfl
@[simp] theorem State.countDraw_halt (s : State) : (s.countDraw).halt = s.halt := rfl
@[simp] theorem State.countDraw_phase (s : State) : (s.countDraw).phase = s.phase := rfl
@[simp] theorem State.countDraw_cfg (s : State) : (s.countDraw).cfg = s.cfg := rfl
@[simp] theorem State.countDraw_draws (s : State) : (s.countDraw).draws = s.draws + 1 := rfl
@[simp] theorem State.countDraw_outcome (s : State) : (s.countDraw).outcome = s.outcome := rfl
@[simp] theorem State.countDraw_getV (s : State) (q : Reg) : (s.countDraw).getV q = s.getV q := rfl
@[simp] theorem State.countDraw_readByte (s : State) (q : Nat) : (s.countDraw).readByte q = s.readByte q := rfl

@[simp] theorem State.report_mem (s : State) (o : StepOutcome) : (s.report o).mem = s.mem := rfl
@[simp] theorem State.report_V (s : State) (o : StepOutcome) : (s.report o).V = s.V := rfl
@[simp] theorem State.report_pc (s : State) (o : StepOutcome) : (s.report o).pc = s.pc := rfl
@[simp] theorem State.report_I (s : State) (o : StepOutcome) : (s.report o).I = s.I := rfl
@[simp] theorem State.report_stack (s : State) (o : StepOutcome) : (s.report o).stack = s.stack := rfl
@[simp] theorem State.report_DT (s : State) (o : StepOutcome) : (s.report o).DT = s.DT := rfl
@[simp] theorem State.report_ST (s : State) (o : StepOutcome) : (s.report o).ST = s.ST := rfl
@[simp] theorem State.report_disp (s : State) (o : StepOutcome) : (s.report o).disp = s.disp := rfl
@[simp] theorem State.report_keys (s : State) (o : StepOutcome) : (s.report o).keys = s.keys := rfl
@[simp] theorem State.report_halt (s : State) (o : StepOutcome) : (s.report o).halt = s.halt := rfl
@[simp] theorem State.report_phase (s : State) (o : StepOutcome) : (s.report o).phase = s.phase := rfl
@[simp] theorem State.report_cfg (s : State) (o : StepOutcome) : (s.report o).cfg = s.cfg := rfl
@[simp] theorem State.report_draws (s : State) (o : StepOutcome) : (s.report o).draws = s.draws := rfl
@[simp] theorem State.report_outcome (s : State) (o : StepOutcome) : (s.report o).outcome = some o := rfl
@[simp] theorem State.report_getV (s : State) (o : StepOutcome) (q : Reg) : (s.report o).getV q = s.getV q := rfl
@[simp] theorem State.report_readByte (s : State) (o : StepOutcome) (q : Nat) : (s.report o).readByte q = s.readByte q := rfl

@[simp] theorem State.writeBytes_mem (s : State) (a : Nat) (bs : List Byte) : (s.writeBytes a bs).mem = s.mem.writeAll s.cfg.font a bs := rfl
@[simp] theorem State.writeBytes_V (s : State) (a : Nat) (bs : List Byte) : (s.writeBytes a bs).V = s.V := rfl
@[simp] theorem State.writeBytes_pc (s : State) (a : Nat) (bs : List Byte) : (s.writeBytes a bs).pc = s.pc := rfl
@[simp] theorem State.writeBytes_I (s : State) (a : Nat) (bs : List Byte) : (s.writeBytes a bs).I = s.I := rfl
@[simp] theorem State.writeBytes_stack (s : State) (a : Nat) (bs : List Byte) : (s.writeBytes a bs).stack = s.stack := rfl
@[simp] theorem State.writeBytes_DT (s : State) (a : Nat) (bs : List Byte) : (s.writeBytes a bs).DT = s.DT := rfl
@[simp] theorem State.writeBytes_ST (s : State) (a : Nat) (bs : List Byte) : (s.writeBytes a bs).ST = s.ST := rfl
@[simp] theorem State.writeBytes_disp (s : State) (a : Nat) (bs : List Byte) : (s.writeBytes a bs).disp = s.disp := rfl
@[simp] theorem State.writeBytes_keys (s : State) (a : Nat) (bs : List Byte) : (s.writeBytes a bs).keys = s.keys := rfl
@[simp] theorem State.writeBytes_halt (s : State) (a : Nat) (bs : List Byte) : (s.writeBytes a bs).halt = s.halt := rfl
@[simp] theorem State.writeBytes_phase (s : State) (a : Nat) (bs : List Byte) : (s.writeBytes a bs).phase = s.phase := rfl
@[simp] theorem State.writeBytes_cfg (s : State) (a : Nat) (bs : List Byte) : (s.writeBytes a bs).cfg = s.cfg := rfl
@[simp] theorem State.writeBytes_draws (s : State) (a : Nat) (bs : List Byte) : (s.writeBytes a bs).draws = s.draws := rfl
@[simp] theorem State.writeBytes_outcome (s : State) (a : Nat) (bs : List Byte) : (s.writeBytes a bs).outcome = s.outcome := rfl
@[simp] theorem State.writeBytes_getV (s : State) (a : Nat) (bs : List Byte) (q : Reg) : (s.writeBytes a bs).getV q = s.getV q := rfl

@[simp] theorem State.setRegBlock_mem (s : State) (bs : List Byte) : (s.setRegBlock bs).mem = s.mem := rfl
@[simp] theorem State.setRegBlock_V (s : State) (bs : List Byte) : (s.setRegBlock bs).V = loadBlock s.V 0 bs := rfl
@[simp] theorem State.setRegBlock_pc (s : State) (bs : List Byte) : (s.setRegBlock bs).pc = s.pc := rfl
@[simp] theorem State.setRegBlock_I (s : State) (bs : List Byte) : (s.setRegBlock bs).I = s.I := rfl
@[simp] theorem State.setRegBlock_stack (s : State) (bs : List Byte) : (s.setRegBlock bs).stack = s.stack := rfl
@[simp] theorem State.setRegBlock_DT (s : State) (bs : List Byte) : (s.setRegBlock bs).DT = s.DT := rfl
@[simp] theorem State.setRegBlock_ST (s : State) (bs : List Byte) : (s.setRegBlock bs).ST = s.ST := rfl
@[simp] theorem State.setRegBlock_disp (s : State) (bs : List Byte) : (s.setRegBlock bs).disp = s.disp := rfl
@[simp] theorem State.setRegBlock_keys (s : State) (bs : List Byte) : (s.setRegBlock bs).keys = s.keys := rfl
@[simp] theorem State.setRegBlock_halt (s : State) (bs : List Byte) : (s.setRegBlock bs).halt = s.halt := rfl
@[simp] theorem State.setRegBlock_phase (s : State) (bs : List Byte) : (s.setRegBlock bs).phase = s.phase := rfl
@[simp] theorem State.setRegBlock_cfg (s : State) (bs : List Byte) : (s.setRegBlock bs).cfg = s.cfg := rfl
@[simp] theorem State.setRegBlock_draws (s : State) (bs : List Byte) : (s.setRegBlock bs).draws = s.draws := rfl
@[simp] theorem State.setRegBlock_outcome (s : State) (bs : List Byte) : (s.setRegBlock bs).outcome = s.outcome := rfl
@[simp] theorem State.setRegBlock_readByte (s : State) (bs : List Byte) (q : Nat) : (s.setRegBlock bs).readByte q = s.readByte q := rfl

@[simp] theorem State.advance_mem (s : State) : (s.advance).mem = s.mem := rfl
@[simp] theorem State.advance_V (s : State) : (s.advance).V = s.V := rfl
@[simp] theorem State.advance_pc (s : State) : (s.advance).pc = s.pc + 2 := rfl
@[simp] theorem State.advance_I (s : State) : (s.advance).I = s.I := rfl
@[simp] theorem State.advance_stack (s : State) : (s.advance).stack = s.stack := rfl
@[simp] theorem State.advance_DT (s : State) : (s.advance).DT = s.DT := rfl
@[simp] theorem State.advance_ST (s : State) : (s.advance).ST = s.ST := rfl
@[simp] theorem State.advance_disp (s : State) : (s.advance).disp = s.disp := rfl
@[simp] theorem State.advance_keys (s : State) : (s.advance).keys = s.keys := rfl
@[simp] theorem State.advance_halt (s : State) : (s.advance).halt = s.halt := rfl
@[simp] theorem State.advance_phase (s : State) : (s.advance).phase = s.phase := rfl
@[simp] theorem State.advance_cfg (s : State) : (s.advance).cfg = s.cfg := rfl
@[simp] theorem State.advance_draws (s : State) : (s.advance).draws = s.draws := rfl
@[simp] theorem State.advance_outcome (s : State) : (s.advance).outcome = s.outcome := rfl
@[simp] theorem State.advance_getV (s : State) (q : Reg) : (s.advance).getV q = s.getV q := rfl
@[simp] theorem State.advance_readByte (s : State) (q : Nat) : (s.advance).readByte q = s.readByte q := rfl

@[simp] theorem State.skipIf_mem (s : State) (c : Bool) : (s.skipIf c).mem = s.mem := rfl
@[simp] theorem State.skipIf_V (s : State) (c : Bool) : (s.skipIf c).V = s.V := rfl
@[simp] theorem State.skipIf_pc (s : State) (c : Bool) : (s.skipIf c).pc = if c then s.pc + 4 else s.pc + 2 := rfl
@[simp] theorem State.skipIf_I (s : State) (c : Bool) : (s.skipIf c).I = s.I := rfl
@[simp] theorem State.skipIf_stack (s : State) (c : Bool) : (s.skipIf c).stack = s.stack := rfl
@[simp] theorem State.skipIf_DT (s : State) (c : Bool) : (s.skipIf c).DT = s.DT := rfl
@[simp] theorem State.skipIf_ST (s : State) (c : Bool) : (s.skipIf c).ST = s.ST := rfl
@[simp] theorem State.skipIf_disp (s : State) (c : Bool) : (s.skipIf c).disp = s.disp := rfl
@[simp] theorem State.skipIf_keys (s : State) (c : Bool) : (s.skipIf c).keys = s.keys := rfl
@[simp] theorem State.skipIf_halt (s : State) (c : Bool) : (s.skipIf c).halt = s.halt := rfl
@[simp] theorem State.skipIf_phase (s : State) (c : Bool) : (s.skipIf c).phase = s.phase := rfl
@[simp] theorem State.skipIf_cfg (s : State) (c : Bool) : (s.skipIf c).cfg = s.cfg := rfl
@[simp] theorem State.skipIf_draws (s : State) (c : Bool) : (s.skipIf c).draws = s.draws := rfl
@[simp] theorem State.skipIf_outcome (s : State) (c : Bool) : (s.skipIf c).outcome = s.outcome := rfl
@[simp] theorem State.skipIf_getV (s : State) (c : Bool) (q : Reg) : (s.skipIf c).getV q = s.getV q := rfl
@[simp] theorem State.skipIf_readByte (s : State) (c : Bool) (q : Nat) : (s.skipIf c).readByte q = s.readByte q := rfl

end Sys2Proof.Machine
end

