-- ==== Sys2Proof/Laws/Ops.lean ====
section
/-! SUPPORT. Laws/Ops.lean: one lemma for each shared operation, saying everything it can do. -/

namespace Sys2Proof.Machine

/-! ## Ranges (R87, R270) -/

/-- A range that ends at or below 4095, or an empty one, is admitted. -/
theorem checkRange_ok {base n : Nat} (h : n = 0 ∨ base + n ≤ 4096) : checkRange base n = .ok () := if_pos h

/-- Any other range faults with its first address above 4095. -/
theorem checkRange_error {base n : Nat} (h0 : n ≠ 0) (h : 4096 < base + n) :
    checkRange base n = .error (.dataOutOfBounds (max base 4096)) :=
  if_neg (by simp only [memSize]; omega)

/-- Reading a range: its bytes, or the fault of the check. -/
theorem State.readRange_cases (s : State) (base n : Nat) :
    ((n = 0 ∨ base + n ≤ 4096) ∧ s.readRange base n = .ok (s.readBytes base n)) ∨
    (n ≠ 0 ∧ 4096 < base + n ∧ s.readRange base n = .error (.dataOutOfBounds (max base 4096))) := by
  by_cases h : n = 0 ∨ base + n ≤ 4096
  · exact .inl ⟨h, by simp [State.readRange, checkRange_ok h, Except.map]⟩
  · refine .inr ⟨by omega, by omega, ?_⟩
    simp [State.readRange, checkRange_error (base := base) (n := n) (by omega) (by omega), Except.map]

/-- Writing a range: its bytes written, or the fault of the check and nothing written. -/
theorem State.writeRange_cases (s : State) (base : Nat) (bs : List Byte) :
    ((bs.length = 0 ∨ base + bs.length ≤ 4096) ∧ s.writeRange base bs = .ok (s.writeBytes base bs)) ∨
    (bs.length ≠ 0 ∧ 4096 < base + bs.length ∧
      s.writeRange base bs = .error (.dataOutOfBounds (max base 4096))) := by
  by_cases h : bs.length = 0 ∨ base + bs.length ≤ 4096
  · exact .inl ⟨h, by simp [State.writeRange, checkRange_ok h, Except.map]⟩
  · refine .inr ⟨by omega, by omega, ?_⟩
    simp [State.writeRange, checkRange_error (base := base) (n := bs.length) (by omega) (by omega), Except.map]

/-- The block of registers V0 to V[X] has X + 1 values. -/
@[simp] theorem State.regBlock_length (s : State) (x : Reg) : (s.regBlock x).length = x.toNat + 1 := by
  have := x.isLt
  simp only [State.regBlock, blockSize, List.length_take, Vector.length_toList]
  omega

/-- Its k-th value is V[k]. -/
theorem State.regBlock_getElem (s : State) (x k : Reg) (h : k.toNat < (s.regBlock x).length) :
    (s.regBlock x)[k.toNat] = s.getV k := by
  simp [State.regBlock, State.getV]

/-- Reading n bytes gives n bytes. -/
@[simp] theorem State.readBytes_length (s : State) (a n : Nat) : (s.readBytes a n).length = n := by
  simp [State.readBytes]

/-- The k-th of them is the byte at a + k. -/
@[simp] theorem State.readBytes_getElem (s : State) (a n k : Nat) (h : k < (s.readBytes a n).length) :
    (s.readBytes a n)[k] = s.readByte (a + k) := by
  simp [State.readBytes]

/-! ## Fetch (R152) -/

theorem State.fetch16_ok {s : State} (h : s.pc.toNat ≤ 4094) :
    s.fetch16 = .ok (wordOfBytes (s.readByte s.pc.toNat) (s.readByte (s.pc.toNat + 1))) :=
  if_neg (by omega)

theorem State.fetch16_error {s : State} (h : s.pc.toNat > 4094) : s.fetch16 = .error (.fetchOutOfBounds s.pc) := if_pos h

/-! ## Stack (R201, R202) -/

theorem State.push_ok {s : State} (a : Word) (h : s.cfg.stackLimit ≠ some s.stack.length) :
    s.push a = .ok (s.setStack (s.stack ++ [a])) := if_neg h

theorem State.push_error {s : State} (a : Word) (h : s.cfg.stackLimit = some s.stack.length) :
    s.push a = .error (.stackOverflow s.stack.length) := if_pos h

theorem State.pop_ok {s : State} {rest : List Word} {a : Word} (h : s.stack = rest ++ [a]) :
    s.pop = .ok (a, s.setStack rest) := by
  simp [State.pop, h]

theorem State.pop_error {s : State} (h : s.stack = []) : s.pop = .error .stackUnderflow := by
  simp [State.pop, h]

/-! ## Keys (R302) -/

theorem State.keyAt_ok {s : State} {v : Byte} (h : v.toNat < 16) : s.keyAt v = .ok (s.keys[v.toNat]) := dif_pos h

theorem State.keyAt_error {s : State} {v : Byte} (h : 15 < v.toNat) : s.keyAt v = .error (.keyIndexOutOfRange v) :=
  dif_neg (by omega)

/-! ## Ends of an instruction (R157, R403) -/

theorem finish_eq (t : State) : finish t = .next (t.report .executed) := rfl

theorem commit_ok (i : Instr) (s t : State) : commit i s (.ok t) = .next (t.report .executed) := rfl

theorem commit_error (i : Instr) (s : State) (f : Fault) :
    commit i s (.error f) = .next (s.takeFault f (some (encode i))) := rfl

/-- A fault entry as one record update. -/
theorem State.takeFault_eq (s : State) (f : Fault) (word : Option Word) :
    s.takeFault f word = { s with halt := some ⟨f, s.pc, word⟩, outcome := some (.fault ⟨f, s.pc, word⟩) } := rfl

end Sys2Proof.Machine
end

