-- ==== Sys2Proof/Laws/Exec.lean ====
section
/-! SUPPORT. Laws/Exec.lean: everything an instruction can do, said once: it faults, or it has its effect. -/

namespace Sys2Proof.Machine

/-- A committed effect: the effect, reported as executed, or a fault with none of it (R157). -/
theorem commit_cases {i : Instr} {s t : State} {e : Except Fault State} (h : commit i s e = .next t) :
    (∃ u, e = .ok u ∧ t = u.report .executed) ∨ (∃ f, e = .error f ∧ t = s.takeFault f (some (encode i))) := by
  cases e <;> cases h
  · exact .inr ⟨_, rfl, rfl⟩
  · exact .inl ⟨_, rfl, rfl⟩

theorem except_map_ok {α β : Type} {e : Except Fault α} {g : α → β} {u : β} (h : e.map g = .ok u) :
    ∃ a, e = .ok a ∧ u = g a := by
  cases e <;> cases h
  exact ⟨_, rfl, rfl⟩

/-- The effect of an instruction that does not fault, for the instructions that can fault, wait, skip or jump; for the
others, that `exec` answers `t`. -/
def EffectOf (i : Instr) (s t : State) : Prop :=
  match i with
  | .cls => t = (s.setDisp Display.blank).advance.report .executed
  | .ret => ∃ a rest, s.stack = rest ++ [a] ∧ t = ((s.setStack rest).setPc (a + 2)).report .executed
  | .jp nnn => t = (s.setPc (addrOf nnn)).report .executed
  | .call nnn => s.cfg.stackLimit ≠ some s.stack.length ∧
      t = ((s.setStack (s.stack ++ [s.pc])).setPc (addrOf nnn)).report .executed
  | .seImm x nn => t = (s.skipIf (s.getV x == nn)).report .executed
  | .sneImm x nn => t = (s.skipIf (s.getV x != nn)).report .executed
  | .seReg x y => t = (s.skipIf (s.getV x == s.getV y)).report .executed
  | .sneReg x y => t = (s.skipIf (s.getV x != s.getV y)).report .executed
  | .ldBV x => s.I.toNat + 3 ≤ 4096 ∧
      t = (s.writeBytes s.I.toNat (bcdDigits (s.getV x))).advance.report .executed
  | .storeRegs x => s.I.toNat + (x.toNat + 1) ≤ 4096 ∧
      t = (s.writeBytes s.I.toNat (s.regBlock x)).advance.report .executed
  | .loadRegs x => s.I.toNat + (x.toNat + 1) ≤ 4096 ∧
      t = (s.setRegBlock (s.readBytes s.I.toNat (x.toNat + 1))).advance.report .executed
  | .drw x y n => (n.toNat = 0 ∨ s.I.toNat + n.toNat ≤ 4096) ∧
      t = (s.drawAt (s.getV x) (s.getV y) (s.readBytes s.I.toNat n.toNat)).advance.report .executed
  | .skp x => ∃ held, s.keyAt (s.getV x) = .ok held ∧ t = (s.skipIf held).report .executed
  | .sknp x => ∃ held, s.keyAt (s.getV x) = .ok held ∧ t = (s.skipIf !held).report .executed
  | .ldVK x => (s.lowestKey = none ∧ t = s.report .waiting) ∨
      ∃ k, s.lowestKey = some k ∧ t = (s.setV x k).advance.report .executed
  | i => exec i s = .next t

/-- An instruction that answers a next state faulted, with its own word in the record, or had its effect. -/
theorem exec_cases {i : Instr} {s t : State} (h : exec i s = .next t) :
    (∃ f, t = s.takeFault f (some (encode i))) ∨ EffectOf i s t := by
  cases i
  case ret =>
    rcases commit_cases h with ⟨u, h1, rfl⟩ | ⟨f, h1, rfl⟩
    · obtain ⟨⟨a, u'⟩, h2, rfl⟩ := except_map_ok h1
      right
      simp only [State.pop] at h2; split at h2 <;> cases h2
      rename_i hh
      refine ⟨a, s.stack.dropLast, ?_, rfl⟩
      exact (List.dropLast_append_getLast? a hh).symm
    · exact .inl ⟨f, rfl⟩
  case call nnn =>
    rcases commit_cases h with ⟨u, h1, rfl⟩ | ⟨f, h1, rfl⟩
    · obtain ⟨u', h2, rfl⟩ := except_map_ok h1
      right
      simp only [State.push] at h2; split at h2 <;> cases h2
      exact ⟨‹_›, rfl⟩
    · exact .inl ⟨f, rfl⟩
  case ldBV x =>
    rcases commit_cases h with ⟨u, h1, rfl⟩ | ⟨f, h1, rfl⟩
    · obtain ⟨u', h2, rfl⟩ := except_map_ok h1
      right
      rcases State.writeRange_cases s s.I.toNat (bcdDigits (s.getV x)) with ⟨h3, h4⟩ | ⟨_, _, h4⟩ <;> rw [h4] at h2 <;> cases h2
      simp [bcdDigits] at h3
      exact ⟨by omega, rfl⟩
    · exact .inl ⟨f, rfl⟩
  case storeRegs x =>
    rcases commit_cases h with ⟨u, h1, rfl⟩ | ⟨f, h1, rfl⟩
    · obtain ⟨u', h2, rfl⟩ := except_map_ok h1
      right
      rcases State.writeRange_cases s s.I.toNat (s.regBlock x) with ⟨h3, h4⟩ | ⟨_, _, h4⟩ <;> rw [h4] at h2 <;> cases h2
      simp at h3
      exact ⟨h3, rfl⟩
    · exact .inl ⟨f, rfl⟩
  case loadRegs x =>
    rcases commit_cases h with ⟨u, h1, rfl⟩ | ⟨f, h1, rfl⟩
    · obtain ⟨u', h2, rfl⟩ := except_map_ok h1
      right
      rcases State.readRange_cases s s.I.toNat (blockSize x) with ⟨h3, h4⟩ | ⟨_, _, h4⟩ <;> rw [h4] at h2 <;> cases h2
      simp [blockSize] at h3
      exact ⟨h3, rfl⟩
    · exact .inl ⟨f, rfl⟩
  case drw x y n =>
    rcases commit_cases h with ⟨u, h1, rfl⟩ | ⟨f, h1, rfl⟩
    · obtain ⟨u', h2, rfl⟩ := except_map_ok h1
      right
      rcases State.readRange_cases s s.I.toNat n.toNat with ⟨h3, h4⟩ | ⟨_, _, h4⟩ <;> rw [h4] at h2 <;> cases h2
      exact ⟨h3, rfl⟩
    · exact .inl ⟨f, rfl⟩
  case skp x =>
    rcases commit_cases h with ⟨u, h1, rfl⟩ | ⟨f, h1, rfl⟩
    · obtain ⟨held, h2, rfl⟩ := except_map_ok h1
      exact .inr ⟨held, h2, rfl⟩
    · exact .inl ⟨f, rfl⟩
  case sknp x =>
    rcases commit_cases h with ⟨u, h1, rfl⟩ | ⟨f, h1, rfl⟩
    · obtain ⟨held, h2, rfl⟩ := except_map_ok h1
      exact .inr ⟨held, h2, rfl⟩
    · exact .inl ⟨f, rfl⟩
  case ldVK x =>
    right
    simp only [exec, execLdVK] at h
    split at h <;> cases h
    · exact .inr ⟨_, ‹_›, rfl⟩
    · exact .inl ⟨‹_›, rfl⟩
  all_goals first | (right; exact h) | (right; cases h; rfl)

end Sys2Proof.Machine
end

