-- ==== Sys2Proof/Laws/Memory.lean ====
section
/-! SUPPORT. Laws/Memory.lean: what a read sees of a write, and that every memory operation keeps the canonical form. -/

namespace Sys2Proof.Machine

/-! ## Reads and writes of one byte -/

theorem Memory.lookup_insert (m : Memory) (a : Nat) (b : Byte) (c : Nat) :
    (m.insert a b).lookup c = if a = c then some b else m.lookup c := by
  induction m with
  | nil => rfl
  | cons e m ih =>
    obtain ⟨d, v⟩ := e
    simp only [Memory.insert]
    split
    · rfl
    · split
      · subst d
        simp only [Memory.lookup]
        split <;> rfl
      · simp only [Memory.lookup, ih]
        split
        · rw [if_neg (by omega)]
        · rfl

theorem Memory.lookup_erase (m : Memory) (a c : Nat) :
    (m.erase a).lookup c = if a = c then none else m.lookup c := by
  induction m with
  | nil => simp [Memory.erase, Memory.lookup]
  | cons e m ih =>
    obtain ⟨d, v⟩ := e
    simp only [Memory.erase, List.filter_cons] at ih ⊢
    split
    · simp only [Memory.lookup, ih]
      split
      · rw [if_neg (by simp_all; omega)]
      · rfl
    · simp only [Memory.lookup, ih]
      split
      · rfl
      · rw [if_neg (by simp_all)]

/-- A read sees the last write to its address and nothing of a write elsewhere (R82, R83). -/
theorem Memory.read_write (font : Font) (m : Memory) (a : Nat) (b : Byte) (c : Nat) :
    (m.write font a b).read font c = if a = c then b else m.read font c := by
  simp only [Memory.write, Memory.read]
  split
  · rw [Memory.lookup_erase]
    split
    · subst c b; rfl
    · rfl
  · rw [Memory.lookup_insert]
    split <;> rfl

/-! ## The canonical form -/

@[simp] theorem Memory.wfFrom_nil (font : Font) (lo : Nat) : Memory.wfFrom font lo [] = true := rfl

theorem Memory.wfFrom_cons (font : Font) (lo a : Nat) (b : Byte) (m : Memory) :
    Memory.wfFrom font lo ((a, b) :: m) = true ↔
      lo ≤ a ∧ a < memSize ∧ b ≠ resetByte font a ∧ Memory.wfFrom font (a + 1) m = true := by
  simp [Memory.wfFrom, and_assoc]

theorem Memory.wfFrom_mono {font : Font} {lo lo' : Nat} {m : Memory} (h : Memory.wfFrom font lo m = true) (hl : lo' ≤ lo) :
    Memory.wfFrom font lo' m = true := by
  cases m with
  | nil => rfl
  | cons e m =>
    obtain ⟨a, b⟩ := e
    rw [Memory.wfFrom_cons] at h ⊢
    exact ⟨by omega, h.2⟩

theorem Memory.wfFrom_insert {font : Font} {m : Memory} {lo a : Nat} {b : Byte} (h : Memory.wfFrom font lo m = true)
    (hlo : lo ≤ a) (ha : a < memSize) (hb : b ≠ resetByte font a) : Memory.wfFrom font lo (m.insert a b) = true := by
  induction m generalizing lo with
  | nil => simp [Memory.insert, Memory.wfFrom_cons, hlo, ha, hb]
  | cons e m ih =>
    obtain ⟨c, v⟩ := e
    obtain ⟨h1, h2, h3, h4⟩ := (Memory.wfFrom_cons ..).mp h
    simp only [Memory.insert]
    split
    · simp only [Memory.wfFrom_cons]
      exact ⟨hlo, ha, hb, by omega, h2, h3, h4⟩
    · split
      · subst c
        simp only [Memory.wfFrom_cons]
        exact ⟨hlo, ha, hb, h4⟩
      · simp only [Memory.wfFrom_cons]
        exact ⟨h1, h2, h3, ih h4 (by omega)⟩

theorem Memory.wfFrom_erase {font : Font} {m : Memory} {lo : Nat} (a : Nat) (h : Memory.wfFrom font lo m = true) :
    Memory.wfFrom font lo (m.erase a) = true := by
  induction m generalizing lo with
  | nil => rfl
  | cons e m ih =>
    obtain ⟨c, v⟩ := e
    obtain ⟨h1, h2, h3, h4⟩ := (Memory.wfFrom_cons ..).mp h
    simp only [Memory.erase, List.filter_cons] at ih ⊢
    split
    · exact (Memory.wfFrom_cons ..).mpr ⟨h1, h2, h3, ih h4⟩
    · exact Memory.wfFrom_mono (ih h4) (by omega)

/-- A write below 4096 keeps the canonical form. -/
theorem Memory.wf_write {font : Font} {m : Memory} {a : Nat} {b : Byte} (h : m.wf font = true) (ha : a < memSize) :
    (m.write font a b).wf font = true := by
  simp only [Memory.write, Memory.wf] at h ⊢
  split
  · exact Memory.wfFrom_erase a h
  · exact Memory.wfFrom_insert h (Nat.zero_le a) ha ‹_›

/-- Writing bytes that end at or below 4095 keeps the canonical form. -/
theorem Memory.wf_writeAll {font : Font} {m : Memory} {a : Nat} {bs : List Byte} (h : m.wf font = true)
    (ha : a + bs.length ≤ memSize) : (m.writeAll font a bs).wf font = true := by
  induction bs generalizing m a with
  | nil => exact h
  | cons b bs ih =>
    simp only [List.length_cons] at ha
    exact ih (Memory.wf_write h (by omega)) (by omega)

/-- Memory after construction is in canonical form. -/
theorem Memory.wf_construct (cfg : Config) : (State.construct cfg).mem.wf cfg.font = true := rfl

end Sys2Proof.Machine
end

