-- ==== Sys2Proof/Laws/PerInstr.lean ====
section
/-! SUPPORT. Laws/PerInstr.lean: statements made for each instruction, one lemma per constructor. -/

namespace Sys2Proof.Laws

/-- The instruction is well-formed, and its word matches its own row under the full mask (R114, R115). -/
def RowMatch.Statement (i : Instr) : Prop := i.wellFormed = true ∧ i.row.accepts (encode i) = true

/-- A word is accepted when the part under the row's mask is the row's match. -/
theorem accepts_of_mask {r : OpRow} {w m v : Word} (hm : r.mask = m) (h : w &&& m = v) (hv : v = r.value) :
    r.accepts w = true := by
  subst hm h
  simp [OpRow.accepts, hv]

theorem RowMatch.cls : RowMatch.Statement .cls := ⟨rfl, rfl⟩
theorem RowMatch.ret : RowMatch.Statement .ret := ⟨rfl, rfl⟩
theorem RowMatch.jp (nnn : Addr12) : RowMatch.Statement (.jp nnn) :=
  ⟨rfl, accepts_of_mask rfl (packNNN_and_F000 _ _) rfl⟩
theorem RowMatch.call (nnn : Addr12) : RowMatch.Statement (.call nnn) :=
  ⟨rfl, accepts_of_mask rfl (packNNN_and_F000 _ _) rfl⟩
theorem RowMatch.seImm (x : Reg) (nn : Byte) : RowMatch.Statement (.seImm x nn) :=
  ⟨rfl, accepts_of_mask rfl (packXNN_and_F000 _ _ _) rfl⟩
theorem RowMatch.sneImm (x : Reg) (nn : Byte) : RowMatch.Statement (.sneImm x nn) :=
  ⟨rfl, accepts_of_mask rfl (packXNN_and_F000 _ _ _) rfl⟩
theorem RowMatch.seReg (x y : Reg) : RowMatch.Statement (.seReg x y) :=
  ⟨rfl, accepts_of_mask rfl (packXYN_and_F00F _ _ _ _) rfl⟩
theorem RowMatch.ldImm (x : Reg) (nn : Byte) : RowMatch.Statement (.ldImm x nn) :=
  ⟨rfl, accepts_of_mask rfl (packXNN_and_F000 _ _ _) rfl⟩
theorem RowMatch.addImm (x : Reg) (nn : Byte) : RowMatch.Statement (.addImm x nn) :=
  ⟨rfl, accepts_of_mask rfl (packXNN_and_F000 _ _ _) rfl⟩
theorem RowMatch.ldReg (x y : Reg) : RowMatch.Statement (.ldReg x y) :=
  ⟨rfl, accepts_of_mask rfl (packXYN_and_F00F _ _ _ _) rfl⟩
theorem RowMatch.orReg (x y : Reg) : RowMatch.Statement (.orReg x y) :=
  ⟨rfl, accepts_of_mask rfl (packXYN_and_F00F _ _ _ _) rfl⟩
theorem RowMatch.andReg (x y : Reg) : RowMatch.Statement (.andReg x y) :=
  ⟨rfl, accepts_of_mask rfl (packXYN_and_F00F _ _ _ _) rfl⟩
theorem RowMatch.xorReg (x y : Reg) : RowMatch.Statement (.xorReg x y) :=
  ⟨rfl, accepts_of_mask rfl (packXYN_and_F00F _ _ _ _) rfl⟩
theorem RowMatch.addReg (x y : Reg) : RowMatch.Statement (.addReg x y) :=
  ⟨rfl, accepts_of_mask rfl (packXYN_and_F00F _ _ _ _) rfl⟩
theorem RowMatch.subReg (x y : Reg) : RowMatch.Statement (.subReg x y) :=
  ⟨rfl, accepts_of_mask rfl (packXYN_and_F00F _ _ _ _) rfl⟩
theorem RowMatch.shrReg (x y : Reg) : RowMatch.Statement (.shrReg x y) :=
  ⟨rfl, accepts_of_mask rfl (packXYN_and_F00F _ _ _ _) rfl⟩
theorem RowMatch.subnReg (x y : Reg) : RowMatch.Statement (.subnReg x y) :=
  ⟨rfl, accepts_of_mask rfl (packXYN_and_F00F _ _ _ _) rfl⟩
theorem RowMatch.shlReg (x y : Reg) : RowMatch.Statement (.shlReg x y) :=
  ⟨rfl, accepts_of_mask rfl (packXYN_and_F00F _ _ _ _) rfl⟩
theorem RowMatch.sneReg (x y : Reg) : RowMatch.Statement (.sneReg x y) :=
  ⟨rfl, accepts_of_mask rfl (packXYN_and_F00F _ _ _ _) rfl⟩
theorem RowMatch.ldI (nnn : Addr12) : RowMatch.Statement (.ldI nnn) :=
  ⟨rfl, accepts_of_mask rfl (packNNN_and_F000 _ _) rfl⟩
theorem RowMatch.jpV0 (nnn : Addr12) : RowMatch.Statement (.jpV0 nnn) :=
  ⟨rfl, accepts_of_mask rfl (packNNN_and_F000 _ _) rfl⟩
theorem RowMatch.rnd (x : Reg) (nn : Byte) : RowMatch.Statement (.rnd x nn) :=
  ⟨rfl, accepts_of_mask rfl (packXNN_and_F000 _ _ _) rfl⟩
theorem RowMatch.drw (x y : Reg) (n : Nibble) : RowMatch.Statement (.drw x y n) :=
  ⟨rfl, accepts_of_mask rfl (packXYN_and_F000 _ _ _ _) rfl⟩
theorem RowMatch.skp (x : Reg) : RowMatch.Statement (.skp x) :=
  ⟨rfl, accepts_of_mask rfl (packXNN_and_F0FF _ _ _) rfl⟩
theorem RowMatch.sknp (x : Reg) : RowMatch.Statement (.sknp x) :=
  ⟨rfl, accepts_of_mask rfl (packXNN_and_F0FF _ _ _) rfl⟩
theorem RowMatch.ldVDT (x : Reg) : RowMatch.Statement (.ldVDT x) :=
  ⟨rfl, accepts_of_mask rfl (packXNN_and_F0FF _ _ _) rfl⟩
theorem RowMatch.ldVK (x : Reg) : RowMatch.Statement (.ldVK x) :=
  ⟨rfl, accepts_of_mask rfl (packXNN_and_F0FF _ _ _) rfl⟩
theorem RowMatch.ldDTV (x : Reg) : RowMatch.Statement (.ldDTV x) :=
  ⟨rfl, accepts_of_mask rfl (packXNN_and_F0FF _ _ _) rfl⟩
theorem RowMatch.ldSTV (x : Reg) : RowMatch.Statement (.ldSTV x) :=
  ⟨rfl, accepts_of_mask rfl (packXNN_and_F0FF _ _ _) rfl⟩
theorem RowMatch.addIV (x : Reg) : RowMatch.Statement (.addIV x) :=
  ⟨rfl, accepts_of_mask rfl (packXNN_and_F0FF _ _ _) rfl⟩
theorem RowMatch.ldFV (x : Reg) : RowMatch.Statement (.ldFV x) :=
  ⟨rfl, accepts_of_mask rfl (packXNN_and_F0FF _ _ _) rfl⟩
theorem RowMatch.ldBV (x : Reg) : RowMatch.Statement (.ldBV x) :=
  ⟨rfl, accepts_of_mask rfl (packXNN_and_F0FF _ _ _) rfl⟩
theorem RowMatch.storeRegs (x : Reg) : RowMatch.Statement (.storeRegs x) :=
  ⟨rfl, accepts_of_mask rfl (packXNN_and_F0FF _ _ _) rfl⟩
theorem RowMatch.loadRegs (x : Reg) : RowMatch.Statement (.loadRegs x) :=
  ⟨rfl, accepts_of_mask rfl (packXNN_and_F0FF _ _ _) rfl⟩

end Sys2Proof.Laws
end

