-- ==== Sys2Proof/Laws/Registers.lean ====
section
/-! SUPPORT. Laws/Registers.lean: what a register read sees of a register write. -/

namespace Sys2Proof.Machine

/-- A register read after a register write (R31). -/
theorem State.getV_setV (s : State) (r q : Reg) (v : Byte) : (s.setV r v).getV q = if r = q then v else s.getV q := by
  simp only [State.getV, State.setV, Vector.getElem_set, BitVec.toNat_inj]

@[simp] theorem State.getV_setV_self (s : State) (r : Reg) (v : Byte) : (s.setV r v).getV r = v := by
  simp [State.getV_setV]

theorem State.getV_setV_ne (s : State) {r q : Reg} (v : Byte) (h : r ≠ q) : (s.setV r v).getV q = s.getV q := by
  simp [State.getV_setV, h]

/-- A register read after a result and a flag are written (R231). -/
theorem State.getV_setResultFlag (s : State) (x q : Reg) (v : Byte) (c : Bool) :
    (s.setResultFlag x v c).getV q = if VF = q then flagByte c else if x = q then v else s.getV q := by
  simp only [State.setResultFlag, State.getV_setV]

/-- Two machines whose registers read alike have the same registers. -/
theorem State.V_ext {s t : State} (h : ∀ r, s.getV r = t.getV r) : s.V = t.V := by
  apply Vector.ext
  intro k hk
  have := h (BitVec.ofNat 4 k)
  simpa [State.getV, Nat.mod_eq_of_lt hk] using this

/-- Loading a block puts its bytes at consecutive registers and leaves the rest (R276). -/
theorem loadBlock_getElem (V : Vector Byte 16) (k : Nat) (bs : List Byte) (j : Nat) (hj : j < 16) :
    (loadBlock V k bs)[j] = if h : k ≤ j ∧ j < k + bs.length then bs[j - k]'(by omega) else V[j] := by
  induction bs generalizing V k with
  | nil =>
    rw [dif_neg (by simp)]
    rfl
  | cons b bs ih =>
    simp only [loadBlock, ih, List.length_cons]
    by_cases h0 : j = k
    · subst h0
      rw [dif_neg (by omega), dif_pos (by omega)]
      simp
    · by_cases h1 : k + 1 ≤ j ∧ j < k + 1 + bs.length
      · rw [dif_pos h1, dif_pos (by omega)]
        obtain ⟨d, rfl⟩ : ∃ d, j = k + 1 + d := ⟨j - (k + 1), by omega⟩
        simp [show k + 1 + d - k = d + 1 by omega]
      · rw [dif_neg h1, dif_neg (by omega)]
        simp [Ne.symm h0]

end Sys2Proof.Machine
end

