-- ==== Sys2Proof/Laws/Step.lean ====
section
/-! SUPPORT. Laws/Step.lean: everything a step can do, said once (R150 to R158). -/

namespace Sys2Proof.Machine

/-- A step that answers a next state is a halted machine's report, a fetch fault, an unknown word, or an instruction. -/
theorem step_cases {s t : State} (h : step s = .next t) :
    s.phase = .loaded ∧
    ((∃ rec, s.halt = some rec ∧ t = s.report (.halted rec)) ∨
     (s.halt = none ∧ 4094 < s.pc.toNat ∧ t = s.takeFault (.fetchOutOfBounds s.pc) none) ∨
     (s.halt = none ∧ s.pc.toNat ≤ 4094 ∧ ∃ w, s.fetch16 = .ok w ∧
       ((∃ e, decodeWord w = .error e ∧ t = s.skipUnknown w) ∨ (∃ i, decodeWord w = .ok i ∧ exec i s = .next t)))) := by
  simp only [step, engineStep] at h
  cases hp : s.phase with
  | constructed => rw [hp] at h; cases h
  | loaded =>
    refine ⟨rfl, ?_⟩
    rw [hp] at h
    cases hh : s.halt with
    | some rec => rw [hh] at h; cases h; exact .inl ⟨rec, rfl, rfl⟩
    | none =>
      rw [hh] at h
      simp only [runningStep] at h
      by_cases hpc : s.pc.toNat ≤ 4094
      · rw [State.fetch16_ok hpc] at h
        refine .inr (.inr ⟨rfl, hpc, _, State.fetch16_ok hpc, ?_⟩)
        simp only [runWord] at h
        cases hd : decodeWord (wordOfBytes (s.readByte s.pc.toNat) (s.readByte (s.pc.toNat + 1))) with
        | ok i => rw [hd] at h; exact .inr ⟨i, rfl, h⟩
        | error e => rw [hd] at h; cases h; exact .inl ⟨e, rfl, rfl⟩
      · rw [State.fetch16_error (by omega)] at h
        cases h
        exact .inr (.inl ⟨rfl, by omega, rfl⟩)

/-- The step of a machine with a word placed at its pc runs exactly that word (log 7). -/
theorem step_withFetchWord {s : State} (nbits w : Nat) (h : s.pc.toNat ≤ 4094) :
    step (s.withFetchWord nbits w) = runWord (tableWord nbits w) (s.withFetchWord nbits w) := by
  have hpc : (s.withFetchWord nbits w).pc = s.pc := by simp [State.withFetchWord, placeFetchWord, h]
  have hphase : (s.withFetchWord nbits w).phase = .loaded := by simp [State.withFetchWord, placeFetchWord, h]
  have hhalt : (s.withFetchWord nbits w).halt = none := by simp [State.withFetchWord, placeFetchWord, h]
  have hfetch : (s.withFetchWord nbits w).fetch16 = .ok (tableWord nbits w) := by
    rw [State.fetch16_ok (by rw [hpc]; exact h), hpc]
    simp [State.withFetchWord, placeFetchWord, h, State.readByte, bytesOfWord, Memory.writeAll, Memory.read_write]
  simp only [step, engineStep, hphase, hhalt, runningStep, hfetch]

end Sys2Proof.Machine
end

