-- ==== Sys2Proof/Tests/Slice0.lean ====
section
/-! SUPPORT. Tests/Slice0.lean: small tests; every expected value is taken from the spec's encodings, examples and vectors
(30_encoding.md R114 and R119, 95_test_vectors.md, the rules' own examples), and a witness for every hypothesis of a
statement. -/

namespace Sys2Proof.Tests

open Sys2Proof Sys2Proof.Machine

/-- A loaded machine that is otherwise as constructed. -/
def base : State := State.reset.setPhase .loaded

/-- The next state of an answer. -/
def nextOf (r : Result) : Option State :=
  match r with
  | .next t => some t
  | .fault _ => none
  | .refused _ => none

/-- A reading of the machine after one instruction. -/
def after {α : Type} (i : Instr) (s : State) (f : State → α) : Option α := (nextOf (exec i s)).map f

/-- A reading of the machine after one step on a word placed at pc. -/
def afterWord {α : Type} (w : Nat) (s : State) (f : State → α) : Option α :=
  (nextOf (step (s.withFetchWord 16 w))).map f

/-- The base machine with V1 and V2. -/
def withV (a b : Byte) : State := (base.setV 0x1 a).setV 0x2 b

/-- V1 and VF of a machine. -/
def v1f (s : State) : Byte × Byte := (s.getV 0x1, s.getV 0xF)

/-- The lit cells of rows 0 to n - 1. -/
def litCells (n : Nat) (s : State) : List (Nat × Nat) :=
  (List.range n).flatMap fun y => ((List.range 64).filter fun x => s.disp.cell (Fin.ofNat 64 x) (Fin.ofNat 32 y)).map fun x => (x, y)

/-! ## WellFormed: the words R115 calls unknown are refused, one test for each class that has them -/

theorem test_class0_refuses : legalWord 0x0000 = false ∧ legalWord 0x0123 = false ∧ legalWord 0x00E1 = false := by decide
theorem test_class5_refuses : legalWord 0x5121 = false := by decide
theorem test_class8_refuses : legalWord 0x8128 = false ∧ legalWord 0x812D = false ∧ legalWord 0x812F = false := by decide
theorem test_class9_refuses : legalWord 0x9121 = false := by decide
theorem test_classE_refuses : legalWord 0xE1A2 = false := by decide
theorem test_classF_refuses : legalWord 0xF1FF = false := by decide
theorem test_every_term_is_well_formed : ∀ x y n, (Instr.drw x y n).wellFormed = true := fun _ _ _ => rfl

/-! ## Decode: a word for every row of R114 -/

theorem test_decode_control : decodeWord 0x00EE = .ok .ret ∧ decodeWord 0x1ABC = .ok (.jp 0xABC) ∧
    decodeWord 0x2300 = .ok (.call 0x300) ∧ decodeWord 0x332A = .ok (.seImm 0x3 0x2A) ∧
    decodeWord 0x432A = .ok (.sneImm 0x3 0x2A) ∧ decodeWord 0x5120 = .ok (.seReg 0x1 0x2) ∧
    decodeWord 0x9120 = .ok (.sneReg 0x1 0x2) ∧ decodeWord 0xB2FF = .ok (.jpV0 0x2FF) := by decide
theorem test_decode_alu : decodeWord 0x6F12 = .ok (.ldImm 0xF 0x12) ∧ decodeWord 0x71FF = .ok (.addImm 0x1 0xFF) ∧
    decodeWord 0x8120 = .ok (.ldReg 0x1 0x2) ∧ decodeWord 0x8121 = .ok (.orReg 0x1 0x2) ∧
    decodeWord 0x8122 = .ok (.andReg 0x1 0x2) ∧ decodeWord 0x8123 = .ok (.xorReg 0x1 0x2) ∧
    decodeWord 0x8124 = .ok (.addReg 0x1 0x2) ∧ decodeWord 0x8125 = .ok (.subReg 0x1 0x2) ∧
    decodeWord 0x8126 = .ok (.shrReg 0x1 0x2) ∧ decodeWord 0x8127 = .ok (.subnReg 0x1 0x2) ∧
    decodeWord 0x812E = .ok (.shlReg 0x1 0x2) ∧ decodeWord 0xC30F = .ok (.rnd 0x3 0x0F) := by decide
theorem test_decode_index : decodeWord 0xA050 = .ok (.ldI 0x050) ∧ decodeWord 0xF21E = .ok (.addIV 0x2) ∧
    decodeWord 0xF429 = .ok (.ldFV 0x4) ∧ decodeWord 0xF033 = .ok (.ldBV 0x0) ∧
    decodeWord 0xF255 = .ok (.storeRegs 0x2) ∧ decodeWord 0xF265 = .ok (.loadRegs 0x2) := by decide
theorem test_decode_display_input : decodeWord 0x00E0 = .ok .cls ∧ decodeWord 0xD125 = .ok (.drw 0x1 0x2 0x5) ∧
    decodeWord 0xE59E = .ok (.skp 0x5) ∧ decodeWord 0xE5A1 = .ok (.sknp 0x5) ∧ decodeWord 0xF007 = .ok (.ldVDT 0x0) ∧
    decodeWord 0xF30A = .ok (.ldVK 0x3) ∧ decodeWord 0xF115 = .ok (.ldDTV 0x1) ∧ decodeWord 0xF118 = .ok (.ldSTV 0x1) := by decide
theorem test_decode_bits_control : decodeWord 0b0010001100000000 = .ok (.call 0b001100000000) := by decide
theorem test_decode_bits_alu : decodeWord 0b1000000100100111 = .ok (.subnReg 0b0001 0b0010) := by decide
theorem test_decode_bits_index : decodeWord 0b1111001000011110 = .ok (.addIV 0b0010) := by decide
theorem test_decode_bits_display : decodeWord 0b1101000100100101 = .ok (.drw 0b0001 0b0010 0b0101) := by decide
theorem test_decode_table_word : decodeTableWord 16 0x8124 = some (.addReg 0x1 0x2) ∧ decodeTableWord 16 0x0000 = none := by decide
theorem test_decode_bytes_big_endian : decodeBytes [0x63, 0x2A, 0x77] = .ok (.ldImm 0x3 0x2A, [0x77]) := by decide
theorem test_decode_truncated : decodeBytes [0x63] = .error .truncated := by decide

/-! ## The engine (95_test_vectors.md 2.1, P6) -/

theorem test_unknown_word : afterWord 0x5121 base (fun t => (t.pc, t.outcome)) = some (0x202, some (.unknown 0x200 0x5121)) := by decide
theorem test_odd_pc_fetches : afterWord 0x6105 (base.setPc 0x201) (fun t => (t.getV 0x1, t.pc)) = some (0x05, 0x203) := by decide
theorem test_last_word_of_memory : afterWord 0x00E0 (base.setPc 0xFFE) (fun t => t.pc) = some 0x1000 := by decide
theorem test_fetch_at_4095_faults :
    (nextOf (step (base.setPc 0xFFF))).map (fun t => (t.pc, t.halt)) =
      some (0xFFF, some ⟨.fetchOutOfBounds 0xFFF, 0xFFF, none⟩) := by decide
theorem test_halted_step :
    (nextOf (step (base.setHalt (some ⟨.stackUnderflow, 0x200, some 0x00EE⟩)))).map (fun t => t.outcome) =
      some (some (.halted ⟨.stackUnderflow, 0x200, some 0x00EE⟩)) := by decide
theorem test_step_before_load_refused : step State.reset = .refused .stepBeforeLoad := rfl
theorem test_fault_record_P6b :
    afterWord 0xF255 ((base.setI 0xFFE).setPc 0x204)
      (fun t => (t.readByte 0xFFE, t.halt, t.halt.map fun r => [r.fault.code, r.fault.info])) =
      some (0x00, some ⟨.dataOutOfBounds 0x1000, 0x204, some 0xF255⟩, some [2, 0x1000]) := by decide

/-! ## Control transfer (2.2) -/

theorem test_jp : after (.jp 0xABC) base (fun t => t.pc) = some 0xABC := by decide
theorem test_call : after (.call 0x300) (base.setPc 0x204) (fun t => (t.stack, t.pc)) = some ([0x204], 0x300) := by decide
theorem test_call_at_the_limit :
    after (.call 0x300) { base with cfg := ⟨some 2, defaultFont⟩, stack := [0x204, 0x206] }
      (fun t => (t.stack, t.halt.map fun r => r.fault)) = some ([0x204, 0x206], some (.stackOverflow 2)) := by decide
theorem test_ret : after .ret ((base.setPc 0x30A).setStack [0x204]) (fun t => (t.stack, t.pc)) = some ([], 0x206) := by decide
theorem test_ret_empty : after .ret (base.setPc 0x300) (fun t => (t.pc, t.halt)) =
    some (0x300, some ⟨.stackUnderflow, 0x300, some 0x00EE⟩) := by decide
theorem test_se_imm : after (.seImm 0x3 0x2A) ((base.setV 0x3 0x2A).setPc 0x300) (fun t => t.pc) = some 0x304 := by decide
theorem test_sne_imm : after (.sneImm 0x3 0x2A) ((base.setV 0x3 0x2A).setPc 0x300) (fun t => t.pc) = some 0x302 := by decide
theorem test_se_reg : after (.seReg 0x1 0x2) ((withV 7 7).setPc 0x300) (fun t => t.pc) = some 0x304 := by decide
theorem test_sne_reg : after (.sneReg 0x1 0x2) ((withV 7 8).setPc 0x300) (fun t => t.pc) = some 0x304 := by decide
theorem test_jp_v0 : after (.jpV0 0xFFF) (base.setV 0x0 0xFF) (fun t => t.pc) = some 0x10FE := by decide
theorem test_jp_v0_ignores_x : after (.jpV0 0x2FF) ((base.setV 0x0 0x01).setV 0x2 0x40) (fun t => t.pc) = some 0x300 := by decide

/-! ## Register and ALU instructions (2.3) -/

theorem test_ld_imm : after (.ldImm 0xF 0x12) base (fun t => t.getV 0xF) = some 0x12 := by decide
theorem test_add_imm_wraps : after (.addImm 0x1 0xFF) ((withV 0x01 0).setV 0xF 0x77) v1f = some (0x00, 0x77) := by decide
theorem test_ld_reg : after (.ldReg 0x1 0x2) (withV 0x12 0x34) v1f = some (0x34, 0) := by decide
theorem test_or : after (.orReg 0x1 0x2) ((withV 0x0F 0xF0).setV 0xF 0x77) v1f = some (0xFF, 0x77) := by decide
theorem test_and : after (.andReg 0x1 0x2) ((withV 0x3C 0x0F).setV 0xF 0x77) v1f = some (0x0C, 0x77) := by decide
theorem test_xor : after (.xorReg 0x1 0x2) ((withV 0x3C 0x0F).setV 0xF 0x77) v1f = some (0x33, 0x77) := by decide
theorem test_add_carry : after (.addReg 0x1 0x2) (withV 0xFF 0xFF) v1f = some (0xFE, 1) := by decide
theorem test_add_into_vf : after (.addReg 0xF 0x1) ((withV 0x90 0).setV 0xF 0x90) v1f = some (0x90, 0x01) := by decide
theorem test_sub_borrow : after (.subReg 0x1 0x2) (withV 3 5) v1f = some (0xFE, 0) := by decide
theorem test_sub_equal : after (.subReg 0x1 0x2) (withV 0 0) v1f = some (0x00, 1) := by decide
theorem test_subn : after (.subnReg 0x1 0x2) (withV 255 0) v1f = some (0x01, 0) := by decide
theorem test_subn_no_borrow : after (.subnReg 0x1 0x2) (withV 3 5) v1f = some (0x02, 1) := by decide
theorem test_shr_source : after (.shrReg 0x1 0x2) (withV 0xAA 0x81) v1f = some (0x40, 1) := by decide
theorem test_shr_into_vf : after (.shrReg 0xF 0x2) ((withV 0 0x02).setV 0xF 0x55) v1f = some (0, 0x00) := by decide
theorem test_shl_source : after (.shlReg 0x1 0x2) (withV 0 0x81) v1f = some (0x02, 1) := by decide
theorem test_shl_into_vf : after (.shlReg 0xF 0x2) (withV 0 0x40) v1f = some (0, 0x00) := by decide
theorem test_rnd_mask : (base.setRandom 0xAB 0x3 0x0F).getV 0x3 = 0x0B := by decide
theorem test_rnd_draws : after (.rnd 0x3 0x0F) base (fun t => (t.draws, t.pc)) = some (1, 0x202) := by decide

/-! ## Index register and memory (2.4) -/

theorem test_ld_i : after (.ldI 0x050) base (fun t => t.I) = some 0x050 := by decide
theorem test_add_i_wraps : after (.addIV 0x2) ((base.setI 0xFFFF).setV 0x2 0x01) (fun t => t.I) = some 0x0000 := by decide
theorem test_add_i_past_4095 : after (.addIV 0x2) ((base.setI 0x0FFF).setV 0x2 0x01) (fun t => (t.I, t.halt)) = some (0x1000, none) := by decide
theorem test_ld_f : after (.ldFV 0x4) (base.setV 0x4 0xFF) (fun t => t.I) = some 0x4FB := by decide
theorem test_bcd : after (.ldBV 0x0) ((base.setV 0x0 0xFE).setI 0x300) (fun t => t.readBytes 0x300 3) = some [2, 5, 4] := by decide
theorem test_bcd_at_the_end : after (.ldBV 0x0) ((base.setV 0x0 7).setI 0xFFD) (fun t => t.readBytes 0xFFD 3) = some [0, 0, 7] := by decide
theorem test_store : after (.storeRegs 0x2) ((((base.setV 0x0 1).setV 0x1 2).setV 0x2 3).setI 0x400)
    (fun t => (t.readBytes 0x3FF 5, t.I)) = some ([0, 1, 2, 3, 0], 0x400) := by decide
theorem test_store_past_the_end : after (.storeRegs 0x0) (base.setI 0xFFFF) (fun t => t.halt.map fun r => r.fault) =
    some (some (.dataOutOfBounds 0xFFFF)) := by decide
theorem test_load_font : after (.loadRegs 0x1) (base.setI 0x000) (fun t => (t.getV 0x0, t.getV 0x1, t.getV 0x2)) = some (0xF0, 0x90, 0) := by decide
theorem test_load : after (.loadRegs 0x2) ((base.writeBytes 0x400 [1, 2, 3]).setI 0x400)
    (fun t => (t.getV 0x0, t.getV 0x1, t.getV 0x2, t.I)) = some (1, 2, 3, 0x400) := by decide

/-! ## Display, keys and timers (2.5) -/

/-- The base machine after glyph "0" is drawn at the origin (S3 b). -/
def glyph : State := ((nextOf (exec (.drw 0x0 0x0 0x5) base)).getD base)

theorem test_draw_glyph : (litCells 6 glyph, glyph.getV 0xF) =
    ([(0, 0), (1, 0), (2, 0), (3, 0), (0, 1), (3, 1), (0, 2), (3, 2), (0, 3), (3, 3), (0, 4), (1, 4), (2, 4), (3, 4)], 0) := by decide
theorem test_draw_twice : after (.drw 0x0 0x0 0x5) glyph (fun t => (decide (t.disp = Display.blank), t.getV 0xF)) = some (true, 1) := by decide
theorem test_draw_wraps : after (.drw 0x1 0x2 0x2) (((withV 63 31).setI 0x300).writeBytes 0x300 [0xC0, 0x80])
    (fun t => [t.disp.cell 63 31, t.disp.cell 0 31, t.disp.cell 1 31, t.disp.cell 63 0, t.disp.cell 0 0]) =
    some [true, true, false, true, false] := by decide
theorem test_draw_nothing : after (.drw 0x1 0x2 0x0) (((withV 5 5).setI 0xFFFF).setV 0xF 9) (fun t => (t.halt, t.getV 0xF)) = some (none, 0) := by decide
theorem test_draw_reads_vf_first : after (.drw 0xF 0x0 0x1) ((((base.setV 0xF 10).setV 0x0 2).setI 0x300).writeBytes 0x300 [0x80])
    (fun t => (litCells 4 t, t.getV 0xF)) = some ([(10, 2)], 0) := by decide
theorem test_cls : after .cls (glyph.setV 0xF 0x33) (fun t => (decide (t.disp = Display.blank), t.getV 0xF)) = some (true, 0x33) := by decide
/-- Key A held, V5 = 0A. -/
def keyA : State := ((setKey 0xA true base).1.setV 0x5 0x0A).setPc 0x300
theorem test_skp : after (.skp 0x5) keyA (fun t => t.pc) = some 0x304 := by decide
theorem test_skp_bad_index : after (.skp 0x5) (keyA.setV 0x5 0x10) (fun t => t.halt.map fun r => r.fault) =
    some (some (.keyIndexOutOfRange 0x10)) := by decide
theorem test_sknp : after (.sknp 0x5) keyA (fun t => t.pc) = some 0x302 := by decide
theorem test_ld_v_dt : after (.ldVDT 0x0) (base.setDT 0x3C) (fun t => (t.getV 0x0, t.DT)) = some (0x3C, 0x3C) := by decide
theorem test_wait_takes_lowest : after (.ldVK 0x3) ((setKey 2 true (setKey 7 true (base.setPc 0x300)).1).1) (fun t => (t.getV 0x3, t.pc)) = some (0x02, 0x302) := by decide
theorem test_wait : after (.ldVK 0x3) (base.setPc 0x300) (fun t => (t.pc, t.outcome)) = some (0x300, some .waiting) := by decide
theorem test_ld_dt_v : after (.ldDTV 0x1) (withV 0x3C 0) (fun t => (t.DT, t.ST)) = some (0x3C, 0) := by decide
theorem test_ld_st_v : after (.ldSTV 0x1) (withV 0x05 0) (fun t => (t.ST, soundOn t)) = some (0x05, true) := by decide

/-! ## Host operations (2.6) -/

theorem test_tick : ((tickTimers (base.setDT 2)).DT, (tickTimers (base.setDT 2)).ST) = (1, 0) := by decide
theorem test_set_key_rejected : (setKey 16 true base).2 = .rejected := by decide
theorem test_load_and_run : (nextOf (runSchedule [.load [0x60, 0x05, 0x70, 0x03], .step, .step] State.reset)).map (fun t => (t.getV 0x0, t.pc)) =
    some (8, 0x204) := by decide

/-! ## Witnesses: a concrete state and operands for the hypotheses of each statement -/

/-- A loaded machine whose memory holds CLS at pc. -/
def clsAtPc : State := base.writeBytes 0x200 [0x00, 0xE0]

theorem ready_base : Ready base := ⟨rfl, rfl⟩
theorem ready_clsAtPc : Ready clsAtPc := ⟨rfl, rfl⟩

theorem inv_construct (cfg : Config) : Machine.Inv (State.construct cfg) where
  memory := rfl
  pcBound := show (0x200#16).toNat ≤ 0x10FE by decide
  returns := by intro a h; cases h
  depth := fun _ _ => Nat.zero_le _
  halted := by intro r h; cases h

theorem inv_base : Machine.Inv base where
  memory := rfl
  pcBound := by decide
  returns := by intro a h; cases h
  depth := fun _ _ => Nat.zero_le _
  halted := by intro r h; cases h

theorem witness_DecodeOfEncodeIsTheInstruction : (Instr.drw 0xF 0xE 0x0).wellFormed = true := rfl
theorem witness_EncodeOfDecodeIsTheWord : decodeWord 0xF265 = .ok (.loadRegs 0x2) := by decide
theorem witness_DecoderAcceptsExactlyTheTable : decodeWord 0x00EE = .ok .ret ∧
    (∃ r ∈ opTable, r.accepts 0x00EE = true) ∧ (∀ r ∈ opTable, r.accepts 0x00EF = false) := by decide
theorem witness_TableRowsDoNotOverlap : ⟨0xF0FF, 0xF065⟩ ∈ opTable ∧ OpRow.accepts ⟨0xF0FF, 0xF065⟩ 0xFF65 = true := by decide
theorem witness_StepRunsTheDecodedInstruction : Ready clsAtPc ∧ clsAtPc.pc.toNat ≤ 4094 ∧
    decodeBytes [clsAtPc.readByte clsAtPc.pc.toNat, clsAtPc.readByte (clsAtPc.pc.toNat + 1)] = .ok (.cls, []) :=
  ⟨ready_clsAtPc, by decide, by decide⟩
theorem witness_UnknownWordIsSkipped : Ready base ∧ (base.setPc 4094).pc.toNat ≤ 4094 ∧
    wordOfBytes (base.readByte 0x200) (base.readByte 0x201) = 0x0000 ∧ legalWord 0x0000 = false :=
  ⟨ready_base, by decide, by decide, by decide⟩
theorem witness_FetchPastTheEndFaults : Ready (base.setPc 4095) ∧ (base.setPc 4095).pc.toNat > 4094 := ⟨⟨rfl, rfl⟩, by decide⟩
theorem witness_HaltedStepChangesNothing :
    (base.setHalt (some ⟨.stackUnderflow, 0x200, none⟩)).phase = .loaded ∧
    (base.setHalt (some ⟨.stackUnderflow, 0x200, none⟩)).halt = some ⟨.stackUnderflow, 0x200, none⟩ := by decide
theorem witness_StepIsRefusedOnlyBeforeLoad : State.reset.phase = .constructed ∧ base.phase = .loaded := by decide
theorem witness_FaultsOfEachInstruction :
    (∃ t, exec .ret base = .next t ∧ FaultedWith base .stackUnderflow (some 0x00EE) t) ∧
    (∃ t, exec (.skp 0x5) (base.setV 0x5 0x10) = .next t ∧
      FaultedWith (base.setV 0x5 0x10) (.keyIndexOutOfRange 0x10) (some 0xE59E) t) ∧
    (∃ t, exec (.ldBV 0x0) (base.setI 0xFFFE) = .next t ∧
      FaultedWith (base.setI 0xFFFE) (.dataOutOfBounds 0xFFFE) (some 0xF033) t) :=
  ⟨⟨_, rfl, rfl⟩, ⟨_, rfl, rfl⟩, ⟨_, rfl, rfl⟩⟩
theorem witness_FaultingStepKeepsTheState : Ready (base.setPc 4095) ∧
    ∃ t, step (base.setPc 4095) = .next t ∧ t.halt ≠ none := ⟨⟨rfl, rfl⟩, _, rfl, by decide⟩
theorem witness_DefaultAdvanceIsTwoBytes : base.pc.toNat ≤ 4094 ∧
    ∃ t, exec (.ldI 0x050) base = .next t ∧ t.outcome = some .executed := ⟨by decide, _, rfl, rfl⟩
theorem witness_StepKeepsTheInvariant : Machine.Inv base ∧ ∃ t, step base = .next t := ⟨inv_base, _, rfl⟩
theorem witness_HostOperationsKeepTheInvariant : Machine.Inv State.reset ∧
    ∃ t, HostOp.apply (.load [0x00, 0xE0]) State.reset = .next t := ⟨inv_construct _, _, rfl⟩
theorem witness_FaultRecordDescribesTheMachine : Machine.Inv base ∧ RecordDescribes base ∧
    ∃ t, HostOp.apply .step base = .next t := ⟨inv_base, (by intro r h; cases h), _, rfl⟩
theorem witness_ReachableMachinesMeetTheInvariant : Reachable defaultConfig State.reset ∧
    Reachable defaultConfig (tickTimers State.reset) :=
  ⟨.start, .op _ _ .tick .start rfl⟩
theorem witness_ReadReturnsTheLastWrite : 0 < [(0x01 : Byte)].length ∧ ¬ byteRange 0x300 [(0x01 : Byte)].length 0x301 := by
  simp [byteRange]
theorem witness_EqualReadsMakeEqualMemories : Memory.wf defaultFont [(0x300, 0x01)] = true ∧
    ∀ a, Memory.read defaultFont [(0x300, 0x01)] a = Memory.read defaultFont (Memory.write defaultFont [] 0x300 0x01) a :=
  ⟨by decide, fun _ => rfl⟩
theorem witness_IndexWrittenOnlyByThree : ∃ t, exec (.ldI 0x050) base = .next t ∧ t.I ≠ base.I := ⟨_, rfl, by decide⟩
theorem witness_DisplayWrittenOnlyByDrawAndClear : ∃ t, exec (.drw 0x0 0x0 0x1) base = .next t ∧ t.disp ≠ base.disp :=
  ⟨_, rfl, by decide⟩
theorem witness_StackMemoryTimersHaveTheirWriters :
    (∃ t, exec (.call 0x300) base = .next t ∧ t.stack ≠ base.stack) ∧
    (∃ t, exec (.ldBV 0x0) ((base.setV 0x0 1).setI 0x300) = .next t ∧ t.mem ≠ base.mem) ∧
    (∃ t, exec (.ldDTV 0x0) (base.setV 0x0 1) = .next t ∧ t.DT ≠ base.DT) ∧
    (∃ t, exec (.ldSTV 0x0) (base.setV 0x0 1) = .next t ∧ t.ST ≠ base.ST) :=
  ⟨⟨_, rfl, by decide⟩, ⟨_, rfl, by decide⟩, ⟨_, rfl, by decide⟩, ⟨_, rfl, by decide⟩⟩
theorem witness_FlagRegisterHasItsWriters :
    ∃ t, exec (.addReg 0x1 0x2) (withV 0xFF 0x01) = .next t ∧ t.getV 0xF ≠ (withV 0xFF 0x01).getV 0xF := ⟨_, rfl, by decide⟩
theorem witness_KeysMatterOnlyToKeyInstructions :
    (∀ x, Instr.cls ≠ .skp x ∧ Instr.cls ≠ .sknp x ∧ Instr.cls ≠ .ldVK x) ∧ ∃ t, exec .cls base = .next t :=
  ⟨by simp, _, rfl⟩
theorem witness_NoInstructionReadsTheSoundTimer : (∃ x, Instr.ldSTV 0x1 = .ldSTV x) ∧ (∀ x, Instr.cls ≠ .ldSTV x) ∧
    (∃ t, exec (.ldSTV 0x1) base = .next t) ∧ ∃ t, exec .cls base = .next t := ⟨⟨_, rfl⟩, by simp, ⟨_, rfl⟩, _, rfl⟩
theorem witness_CallPushesItsOwnAddress : base.cfg.stackLimit ≠ some base.stack.length ∧
    (State.construct ⟨some 0, defaultFont⟩).cfg.stackLimit = some (State.construct ⟨some 0, defaultFont⟩).stack.length := by decide
theorem witness_RetGoesPastTheCall : (base.setStack [0x204, 4094]).stack = [0x204] ++ [4094] ∧ (4094 : Word).toNat ≤ 4094 := by decide
theorem witness_RetOnEmptyStackFaults : base.stack = [] := rfl
theorem witness_RetUndoesCall : base.pc.toNat ≤ 4094 ∧ base.cfg.stackLimit ≠ some base.stack.length ∧
    ∃ t, exec (.call 0x300) base = .next t ∧ (base.setStack [0x200]).stack = t.stack := ⟨by decide, by decide, _, rfl, rfl⟩
theorem witness_DecimalDigitsAreStored : (base.setI 0xFFD).I.toNat + 2 ≤ 4095 := by decide
theorem witness_RegistersAreStoredInclusive : (base.setI 0xFF0).I.toNat + (0xF : Reg).toNat ≤ 4095 := by decide
theorem witness_RegistersAreLoadedInclusive : (base.setI 0xFFF).I.toNat + (0x0 : Reg).toNat ≤ 4095 := by decide
theorem witness_DataPastTheEndFaults : (base.setI 0xFFE).I.toNat + 2 > 4095 ∧
    (base.setI 0xFFE).I.toNat + (0x2 : Reg).toNat > 4095 ∧
    ((0x1 : Nibble) ≠ 0 ∧ (base.setI 0x1000).I.toNat + (0x1 : Nibble).toNat - 1 > 4095) := by decide
theorem witness_StoreThenLoadRestoresRegisters : base.I.toNat + (0xF : Reg).toNat ≤ 4095 ∧
    ∃ t, exec (.storeRegs 0xF) base = .next t ∧ t.mem = t.mem ∧ t.cfg = t.cfg ∧ t.I = t.I ∧
      ∀ k : Reg, (0xF : Reg).toNat < k.toNat → t.getV k = t.getV k := ⟨by decide, _, rfl, rfl, rfl, rfl, fun _ _ => rfl⟩
theorem witness_StoredWordIsFetched : 1 ≤ (0x1 : Reg).toNat ∧ (base.setI 0xFFE).I.toNat + (0x1 : Reg).toNat ≤ 4095 ∧
    ∃ t, exec (.storeRegs 0x1) (base.setI 0xFFE) = .next t := ⟨by decide, by decide, _, rfl⟩
theorem witness_DrawXorsTheSprite : (0x5 : Nibble) ≠ 0 ∧ (base.setI 0xFFB).I.toNat + (0x5 : Nibble).toNat - 1 ≤ 4095 := by decide
theorem witness_DrawXorsTheSprite_empty : (0x0 : Nibble) ≠ 0 → (base.setI 0xFFFF).I.toNat + (0x0 : Nibble).toNat - 1 ≤ 4095 := by decide
theorem witness_DrawingTwiceRestoresTheDisplay : (0x0 : Reg) ≠ 0xF ∧
    ((0x5 : Nibble) ≠ 0 → base.I.toNat + (0x5 : Nibble).toNat - 1 ≤ 4095) ∧ ∃ t, exec (.drw 0x0 0x0 0x5) base = .next t :=
  ⟨by decide, by decide, _, rfl⟩
theorem witness_KeySkipsReadTheKey : ((base.setV 0x5 15).getV 0x5).toNat = (15 : Fin 16).val ∧
    ((base.setV 0x5 16).getV 0x5).toNat > 15 := by decide
theorem witness_WaitForKeyTakesTheLowest :
    (((setKey 2 true base).1).keys[(2 : Fin 16)] = true ∧ ∀ j : Fin 16, j < 2 → ((setKey 2 true base).1).keys[j] = false) ∧
    (∀ k : Fin 16, base.keys[k] = false) := by decide
theorem witness_SetKeyChangesOneKey : 15 ≤ 15 ∧ 16 > 15 := by decide
theorem witness_LoadCopiesTheImage : State.reset.phase = .constructed ∧ (List.replicate 3584 (0xAA : Byte)).length ≤ 3584 ∧
    (List.replicate 3585 (0xAA : Byte)).length > 3584 ∧ base.phase = .loaded :=
  ⟨rfl, List.length_replicate.le, List.length_replicate.symm ▸ by decide, rfl⟩
theorem witness_FirstInstructionIsAtTheEntryPoint : [(0x00 : Byte), 0xE0, 0x12, 0x00].length ≤ 3584 ∧
    decodeBytes [0x00, 0xE0] = .ok (.cls, []) := by decide

end Sys2Proof.Tests
end

/-! # What an instruction leaves unchanged

`Frame` is built up one state operation at a time, and then once for each instruction. -/

namespace Sys2Proof.Machine

section FrameRules

variable {regs : List Reg} {stored : Nat → Prop} {parts : List Part} {s t : State}

/-- A state keeps everything of itself, whatever it is allowed to change. -/
theorem Frame.refl : Frame regs stored parts s s := by constructor <;> intros <;> rfl

theorem Frame.report (h : Frame regs stored parts s t) (o : StepOutcome) : Frame regs stored parts s (t.report o) :=
  { h with }

theorem Frame.setPc (h : Frame regs stored parts s t) (v : Word) : Frame regs stored parts s (t.setPc v) :=
  { h with }

theorem Frame.advance (h : Frame regs stored parts s t) : Frame regs stored parts s t.advance := h.setPc _

theorem Frame.skipIf (h : Frame regs stored parts s t) (c : Bool) : Frame regs stored parts s (t.skipIf c) := h.setPc _

theorem Frame.setV (h : Frame regs stored parts s t) {r : Reg} (hr : r ∈ regs) (v : Byte) :
    Frame regs stored parts s (t.setV r v) :=
  { h with
    regs := fun q hq => (State.getV_setV_ne t v (ne_of_mem_of_not_mem hr hq)).trans (h.regs q hq) }

theorem Frame.setResultFlag (h : Frame regs stored parts s t) {x : Reg} (hx : x ∈ regs) (hF : VF ∈ regs) (v : Byte)
    (c : Bool) : Frame regs stored parts s (t.setResultFlag x v c) :=
  (h.setV hx v).setV hF _

theorem Frame.setI (h : Frame regs stored parts s t) (hp : .I ∈ parts) (v : Word) :
    Frame regs stored parts s (t.setI v) :=
  { h with I := fun hn => absurd hp hn }

theorem Frame.setStack (h : Frame regs stored parts s t) (hp : .stack ∈ parts) (v : List Word) :
    Frame regs stored parts s (t.setStack v) :=
  { h with stack := fun hn => absurd hp hn }

theorem Frame.setDT (h : Frame regs stored parts s t) (hp : .DT ∈ parts) (v : Byte) :
    Frame regs stored parts s (t.setDT v) :=
  { h with DT := fun hn => absurd hp hn }

theorem Frame.setST (h : Frame regs stored parts s t) (hp : .ST ∈ parts) (v : Byte) :
    Frame regs stored parts s (t.setST v) :=
  { h with ST := fun hn => absurd hp hn }

theorem Frame.setDisp (h : Frame regs stored parts s t) (hp : .disp ∈ parts) (v : Display) :
    Frame regs stored parts s (t.setDisp v) :=
  { h with disp := fun hn => absurd hp hn }

theorem Frame.countDraw (h : Frame regs stored parts s t) (hp : .draws ∈ parts) :
    Frame regs stored parts s t.countDraw :=
  { h with draws := fun hn => absurd hp hn }

theorem Frame.drawAt (h : Frame regs stored parts s t) (hp : .disp ∈ parts) (hF : VF ∈ regs) (vx vy : Byte)
    (sprite : List Byte) : Frame regs stored parts s (t.drawAt vx vy sprite) :=
  (h.setDisp hp _).setV hF _

/-- A register past the end of a loaded block keeps its value (R276). -/
theorem State.getV_setRegBlock_of_le (u : State) {bs : List Byte} {q : Reg} (hq : bs.length ≤ q.toNat) :
    (u.setRegBlock bs).getV q = u.getV q := by
  simp only [State.getV, State.setRegBlock_V, loadBlock_getElem]
  exact dif_neg (by omega)

theorem Frame.setRegBlock (h : Frame regs stored parts s t) {bs : List Byte}
    (hr : ∀ q : Reg, q.toNat < bs.length → q ∈ regs) : Frame regs stored parts s (t.setRegBlock bs) :=
  { h with
    regs := fun q hq =>
      (t.getV_setRegBlock_of_le (Nat.le_of_not_lt fun hlt => hq (hr q hlt))).trans (h.regs q hq) }

/-- Bytes written at consecutive addresses are not seen at any other address (R83, R88). -/
theorem Memory.read_writeAll_of_notMem (font : Font) (m : Memory) (a : Nat) (bs : List Byte) (c : Nat)
    (hc : ¬ byteRange a bs.length c) : (m.writeAll font a bs).read font c = m.read font c := by
  induction bs generalizing m a with
  | nil => rfl
  | cons b bs ih =>
    simp only [byteRange, List.length_cons] at hc ih
    rw [Memory.writeAll, ih _ _ (by omega), Memory.read_write, if_neg (by omega)]

theorem Frame.writeBytes (h : Frame regs stored parts s t) {a : Nat} {bs : List Byte}
    (hb : ∀ c, byteRange a bs.length c → stored c) : Frame regs stored parts s (t.writeBytes a bs) :=
  { h with
    bytes := fun c hc =>
      (Memory.read_writeAll_of_notMem _ _ a bs c fun hin => hc (hb c hin)).trans (h.bytes c hc) }

end FrameRules

/-! ## What each instruction can write -/

/-- The registers an instruction can write (R32 for the flag). -/
def writtenRegs : Instr → List Reg
  | .ldImm x _ | .addImm x _ | .rnd x _ | .ldReg x _ | .orReg x _ | .andReg x _ | .xorReg x _ => [x]
  | .ldVDT x | .ldVK x => [x]
  | .addReg x _ | .subReg x _ | .shrReg x _ | .subnReg x _ | .shlReg x _ => [x, 0xF]
  | .drw _ _ _ => [0xF]
  | .loadRegs x => (List.range (x.toNat + 1)).map (BitVec.ofNat 4)
  | _ => []

/-- The addresses an instruction can store to. -/
def writtenBytes (i : Instr) (s : State) : Nat → Prop :=
  match i with
  | .ldBV _ => byteRange s.I.toNat 3
  | .storeRegs x => byteRange s.I.toNat (x.toNat + 1)
  | _ => noBytes

/-- The other parts of the state an instruction can write (R34 to R37). -/
def writtenParts : Instr → List Part
  | .cls | .drw _ _ _ => [.disp]
  | .ret | .call _ => [.stack]
  | .ldI _ | .addIV _ | .ldFV _ => [.I]
  | .rnd _ _ => [.draws]
  | .ldDTV _ => [.DT]
  | .ldSTV _ => [.ST]
  | _ => []

/-- The registers V0 to V[X], as a list of register numbers. -/
theorem mem_regsUpTo {r x : Reg} : r ∈ (List.range (x.toNat + 1)).map (BitVec.ofNat 4) ↔ r.toNat ≤ x.toNat := by
  simp only [List.mem_map, List.mem_range]
  constructor
  · rintro ⟨k, hk, rfl⟩
    have := x.isLt
    simp only [BitVec.toNat_ofNat]
    omega
  · exact fun h => ⟨r.toNat, by omega, by simp⟩

/-- The effect of an instruction stays within its registers, bytes and parts. -/
theorem EffectOf.frame {i : Instr} {s t : State} (h : EffectOf i s t) :
    Frame (writtenRegs i) (writtenBytes i s) (writtenParts i) s t := by
  cases i
  case cls => cases h; exact (Frame.refl.setDisp (.head _) _).advance.report _
  case ret =>
    obtain ⟨a, rest, -, rfl⟩ := h
    exact ((Frame.refl.setStack (.head _) _).setPc _).report _
  case call nnn =>
    obtain ⟨-, rfl⟩ := h
    exact ((Frame.refl.setStack (.head _) _).setPc _).report _
  case jp nnn => cases h; exact (Frame.refl.setPc _).report _
  case jpV0 nnn => cases h; exact (Frame.refl.setPc _).report _
  case seImm x nn => cases h; exact (Frame.refl.skipIf _).report _
  case sneImm x nn => cases h; exact (Frame.refl.skipIf _).report _
  case seReg x y => cases h; exact (Frame.refl.skipIf _).report _
  case sneReg x y => cases h; exact (Frame.refl.skipIf _).report _
  case skp x => obtain ⟨held, -, rfl⟩ := h; exact (Frame.refl.skipIf _).report _
  case sknp x => obtain ⟨held, -, rfl⟩ := h; exact (Frame.refl.skipIf _).report _
  case ldI nnn => cases h; exact (Frame.refl.setI (.head _) _).advance.report _
  case addIV x => cases h; exact (Frame.refl.setI (.head _) _).advance.report _
  case ldFV x => cases h; exact (Frame.refl.setI (.head _) _).advance.report _
  case ldDTV x => cases h; exact (Frame.refl.setDT (.head _) _).advance.report _
  case ldSTV x => cases h; exact (Frame.refl.setST (.head _) _).advance.report _
  case rnd x nn => cases h; exact ((Frame.refl.setV (.head _) _).advance.countDraw (.head _)).report _
  case drw x y n =>
    obtain ⟨-, rfl⟩ := h
    exact (Frame.refl.drawAt (.head _) (.head _) _ _ _).advance.report _
  case ldBV x =>
    obtain ⟨-, rfl⟩ := h
    refine (Frame.refl.writeBytes ?_).advance.report _
    exact fun c hc => hc
  case storeRegs x =>
    obtain ⟨-, rfl⟩ := h
    exact (Frame.refl.writeBytes fun c hc => by rwa [State.regBlock_length] at hc).advance.report _
  case loadRegs x =>
    obtain ⟨-, rfl⟩ := h
    exact (Frame.refl.setRegBlock fun q hq =>
      mem_regsUpTo.mpr (by rw [State.readBytes_length] at hq; omega)).advance.report _
  case ldVK x =>
    obtain ⟨-, rfl⟩ | ⟨k, -, rfl⟩ := h
    · exact Frame.refl.report _
    · exact (Frame.refl.setV (.head _) _).advance.report _
  case addReg x y | subReg x y | shrReg x y | subnReg x y | shlReg x y =>
    cases h
    exact (Frame.refl.setResultFlag (.head _) (.tail _ (.head _)) _ _).advance.report _
  all_goals
    cases h
    exact (Frame.refl.setV (.head _) _).advance.report _

/-- Whatever an instruction answers stays within its registers, bytes and parts, but for the halt latch, which a fault
sets (R157, R403). -/
theorem exec_frame {i : Instr} {s t : State} (h : exec i s = .next t) :
    Frame (writtenRegs i) (writtenBytes i s) (writtenParts i) s (t.setHalt s.halt) := by
  obtain ⟨f, rfl⟩ | he := exec_cases h
  · constructor <;> intros <;> rfl
  · exact { he.frame with halt := rfl }

end Sys2Proof.Machine

/-! # The invariant -/

namespace Sys2Proof.Machine

/-! ## What an effect does to memory, the stack and pc -/

/-- An effect leaves memory alone, or it is FX33 or FX55 and writes bytes at I that end at or below 4095 (R87). -/
theorem EffectOf.mem_cases {i : Instr} {s t : State} (h : EffectOf i s t) :
    t.mem = s.mem ∨
    (((∃ x, i = .ldBV x) ∨ ∃ x, i = .storeRegs x) ∧
      ∃ bs : List Byte, s.I.toNat + bs.length ≤ memSize ∧ t.mem = s.mem.writeAll s.cfg.font s.I.toNat bs) := by
  cases i
  case ldBV x =>
    obtain ⟨hfit, rfl⟩ := h
    exact .inr ⟨.inl ⟨x, rfl⟩, bcdDigits (s.getV x), hfit, rfl⟩
  case storeRegs x =>
    obtain ⟨hfit, rfl⟩ := h
    exact .inr ⟨.inr ⟨x, rfl⟩, s.regBlock x, by rwa [State.regBlock_length], rfl⟩
  case ret => obtain ⟨_, _, _, rfl⟩ := h; exact .inl rfl
  case skp x | sknp x => obtain ⟨_, _, rfl⟩ := h; exact .inl rfl
  case call nnn | loadRegs x | drw x y n => obtain ⟨_, rfl⟩ := h; exact .inl rfl
  case ldVK x => obtain ⟨_, rfl⟩ | ⟨_, _, rfl⟩ := h <;> exact .inl rfl
  all_goals cases h; exact .inl rfl

/-- An effect leaves the stack alone, pops its last entry, or is that of a CALL below the limit, which pushes its own
address (R201, R202, R205). -/
theorem EffectOf.stack_cases {i : Instr} {s t : State} (h : EffectOf i s t) :
    t.stack = s.stack ∨ (∃ a, s.stack = t.stack ++ [a]) ∨
    (s.cfg.stackLimit ≠ some s.stack.length ∧ t.stack = s.stack ++ [s.pc]) := by
  cases i
  case ret => obtain ⟨a, rest, hst, rfl⟩ := h; exact .inr (.inl ⟨a, hst⟩)
  case call nnn => obtain ⟨hlim, rfl⟩ := h; exact .inr (.inr ⟨hlim, rfl⟩)
  all_goals exact .inl (h.frame.stack (by simp [writtenParts]))

/-- Where an instruction can continue: where it is, 2 or 4 further, 2 past a return address, or at NNN plus a byte. -/
inductive NextPc (s : State) : Word → Prop
  | stay : NextPc s s.pc
  | advance : NextPc s (s.pc + 2)
  | skip : NextPc s (s.pc + 4)
  | ret (a : Word) : a ∈ s.stack → NextPc s (a + 2)
  | jump (nnn : Addr12) (v : Byte) : NextPc s (addrOf nnn + wordOfByte v)

theorem NextPc.skipIf (s : State) (c : Bool) : NextPc s (s.skipIf c).pc := by
  cases c
  · exact .advance
  · exact .skip

theorem NextPc.target (s : State) (nnn : Addr12) : NextPc s (addrOf nnn) := by
  simpa [wordOfByte] using NextPc.jump (s := s) nnn 0

theorem EffectOf.nextPc {i : Instr} {s t : State} (h : EffectOf i s t) : NextPc s t.pc := by
  cases i
  case ret =>
    obtain ⟨a, rest, hst, rfl⟩ := h
    exact .ret a (by simp [hst])
  case call nnn => obtain ⟨_, rfl⟩ := h; exact .target s nnn
  case jp nnn => cases h; exact .target s nnn
  case jpV0 nnn => cases h; exact .jump nnn _
  case seImm x nn | sneImm x nn | seReg x y | sneReg x y => cases h; exact .skipIf s _
  case skp x | sknp x => obtain ⟨_, _, rfl⟩ := h; exact .skipIf s _
  case ldBV x | storeRegs x | loadRegs x | drw x y n => obtain ⟨_, rfl⟩ := h; exact .advance
  case ldVK x =>
    obtain ⟨_, rfl⟩ | ⟨_, _, rfl⟩ := h
    · exact .stay
    · exact .advance
  all_goals cases h; exact .advance

/-- From a fetched pc and return addresses of fetched CALLs, no instruction continues past 0x10FE = 0xFFF + 0xFF (R33). -/
theorem NextPc.bound {s : State} {pc : Word} (h : NextPc s pc) (hpc : s.pc.toNat ≤ 4094)
    (hret : ∀ a ∈ s.stack, a.toNat ≤ 4094) : pc.toNat ≤ 0x10FE := by
  cases h with
  | stay => omega
  | advance => bv_omega
  | skip => bv_omega
  | ret a ha =>
    have := hret a ha
    bv_omega
  | jump nnn v =>
    have := nnn.isLt
    have := v.isLt
    simp only [addrOf, wordOfByte, BitVec.toNat_add, BitVec.toNat_setWidth]
    omega

/-! ## The invariant, one end of a step at a time -/

/-- The invariant says nothing of the registers, I, the timers, the display, the keys, the draws and the outcome. -/
theorem Inv.congr {s t : State} (h : Inv s) (hmem : t.mem = s.mem) (hcfg : t.cfg = s.cfg) (hpc : t.pc = s.pc)
    (hstack : t.stack = s.stack) (hhalt : t.halt = s.halt) (hphase : t.phase = s.phase) : Inv t where
  memory := by rw [hmem, hcfg]; exact h.memory
  pcBound := by rw [hpc]; exact h.pcBound
  returns := by rw [hstack]; exact h.returns
  depth := by rw [hstack, hcfg]; exact h.depth
  halted := by rw [hhalt, hphase, hpc]; exact h.halted

/-- A fault entry on a loaded machine keeps the invariant: its record has the machine's pc (R402, R403). -/
theorem Inv.takeFault {s : State} (h : Inv s) (hloaded : s.phase = .loaded) (f : Fault) (word : Option Word) :
    Inv (s.takeFault f word) where
  memory := h.memory
  pcBound := h.pcBound
  returns := h.returns
  depth := h.depth
  halted := by
    rintro rec ⟨⟩
    exact ⟨hloaded, rfl⟩

/-- Skipping an unknown word that was fetched keeps the invariant (R156). -/
theorem Inv.skipUnknown {s : State} (h : Inv s) (hpc : s.pc.toNat ≤ 4094) (hrun : s.halt = none) (w : Word) :
    Inv (s.skipUnknown w) where
  memory := h.memory
  pcBound := NextPc.advance.bound hpc h.returns
  returns := h.returns
  depth := h.depth
  halted := fun rec hrec => by cases hrun.symm.trans hrec

/-- The effect of an instruction that was fetched keeps the invariant. -/
theorem Inv.effect {i : Instr} {s t : State} (h : Inv s) (hpc : s.pc.toNat ≤ 4094) (hrun : s.halt = none)
    (he : EffectOf i s t) : Inv t where
  memory := by
    rw [he.frame.cfg]
    obtain hmem | ⟨-, bs, hfit, hmem⟩ := he.mem_cases
    · rw [hmem]
      exact h.memory
    · rw [hmem]
      exact Memory.wf_writeAll h.memory hfit
  pcBound := he.nextPc.bound hpc h.returns
  returns := by
    obtain hst | ⟨a, hst⟩ | ⟨-, hst⟩ := he.stack_cases
    · rw [hst]
      exact h.returns
    · exact fun b hb => h.returns b (by simp [hst, hb])
    · rw [hst]
      intro b hb
      obtain hb | rfl := List.mem_append.mp hb |>.imp_right List.mem_singleton.mp
      · exact h.returns b hb
      · exact hpc
  depth := by
    rw [he.frame.cfg]
    intro n hn
    have hlen := h.depth n hn
    obtain hst | ⟨a, hst⟩ | ⟨hlim, hst⟩ := he.stack_cases
    · rwa [hst]
    · rw [hst, List.length_append] at hlen
      omega
    · have hne : n ≠ s.stack.length := by rintro rfl; exact hlim hn
      rw [hst, List.length_append, List.length_singleton]
      omega
  halted := fun rec hrec => by cases (he.frame.halt.trans hrun).symm.trans hrec

/-- Settles O16, by the cases of a step: a report, a fetch fault, a skipped word, or an instruction's fault or effect. -/
theorem stepKeepsTheInvariant : Obligations.StepKeepsTheInvariant := by
  intro s t hs hstep
  obtain ⟨hloaded, ⟨rec, -, rfl⟩ | ⟨-, -, rfl⟩ | ⟨hrun, hpc, w, -, hword⟩⟩ := step_cases hstep
  · exact hs.congr rfl rfl rfl rfl rfl rfl
  · exact hs.takeFault hloaded _ _
  · obtain ⟨e, -, rfl⟩ | ⟨i, -, hexec⟩ := hword
    · exact hs.skipUnknown hpc hrun w
    · obtain ⟨f, rfl⟩ | he := exec_cases hexec
      · exact hs.takeFault hloaded _ _
      · exact hs.effect hpc hrun he

/-! ## Host operations -/

/-- Everything `load_program` can answer: a LoadError that changes nothing, or the image in memory and phase Loaded; only
in phase Constructed (R502, R415). -/
theorem load_cases {b : List Byte} {s t : State} (h : HostOp.apply (.load b) s = .next t) :
    s.phase = .constructed ∧
      (t = s ∨ (programBase + b.length ≤ memSize ∧ t = (s.writeBytes programBase b).setPhase .loaded)) := by
  simp only [HostOp.apply, loadProgram] at h
  cases hphase : s.phase with
  | loaded => simp [hphase] at h
  | constructed =>
    refine ⟨rfl, ?_⟩
    by_cases hlong : b.length > maxProgramSize
    · simp only [hphase, if_pos hlong] at h
      cases h
      exact .inl rfl
    · simp only [hphase, if_neg hlong] at h
      cases h
      have hfit : programBase + b.length ≤ memSize := by
        simp only [maxProgramSize, programBase, memSize] at hlong ⊢
        omega
      exact .inr ⟨hfit, rfl⟩

/-- `set_key` writes the keys and nothing else (R413). -/
theorem setKey_eq_setKeys (index : Nat) (pressed : Bool) (s : State) :
    ∃ keys, (setKey index pressed s).1 = s.setKeys keys := by
  by_cases h : index < 16
  · exact ⟨s.keys.set index pressed, by simp [setKey, h]⟩
  · exact ⟨s.keys, by simp [setKey, h, State.setKeys]⟩

/-- A machine that meets the invariant and is not loaded has no fault record. -/
theorem Inv.halt_none {s : State} (h : Inv s) (hphase : s.phase = .constructed) : s.halt = none := by
  cases hhalt : s.halt with
  | none => rfl
  | some rec => cases hphase.symm.trans (h.halted rec hhalt).1

/-- Loading an image that fits keeps the invariant (R502). -/
theorem Inv.load {s : State} (h : Inv s) (hphase : s.phase = .constructed) {b : List Byte}
    (hfit : programBase + b.length ≤ memSize) : Inv ((s.writeBytes programBase b).setPhase .loaded) where
  memory := Memory.wf_writeAll h.memory hfit
  pcBound := h.pcBound
  returns := h.returns
  depth := h.depth
  halted := fun rec hrec => by cases (h.halt_none hphase).symm.trans hrec

/-- Settles O17, by the operation. -/
theorem hostOperationsKeepTheInvariant : Obligations.HostOperationsKeepTheInvariant := by
  intro op s t hs happly
  cases op with
  | load b =>
    obtain ⟨hphase, rfl | ⟨hfit, rfl⟩⟩ := load_cases happly
    · exact hs
    · exact hs.load hphase hfit
  | step => exact stepKeepsTheInvariant s t hs happly
  | tick =>
    cases happly
    exact hs.congr rfl rfl rfl rfl rfl rfl
  | key index pressed =>
    cases happly
    obtain ⟨keys, hkeys⟩ := setKey_eq_setKeys index pressed s
    rw [hkeys]
    exact hs.congr rfl rfl rfl rfl rfl rfl

end Sys2Proof.Machine

/-! # The decoder loses no bit (R111, R115) -/

namespace Sys2Proof

/-- A word of a known class is that class packed with its own fields. -/
theorem eq_packXNN {w : Word} {c : Nibble} (h : (fieldClass w).toNat = c.toNat) :
    packXNN c (fieldX w) (fieldNN w) = w := by
  rw [← BitVec.eq_of_toNat_eq h, packXNN_fields]

theorem eq_packXNN_of_nn {w : Word} {c : Nibble} {nn : Byte} (h : (fieldClass w).toNat = c.toNat)
    (hnn : (fieldNN w).toNat = nn.toNat) : packXNN c (fieldX w) nn = w := by
  rw [← BitVec.eq_of_toNat_eq hnn, eq_packXNN h]

theorem eq_packXYN {w : Word} {c : Nibble} {n : Nibble} (h : (fieldClass w).toNat = c.toNat)
    (hn : (fieldN w).toNat = n.toNat) : packXYN c (fieldX w) (fieldY w) n = w := by
  rw [← BitVec.eq_of_toNat_eq h, ← BitVec.eq_of_toNat_eq hn, packXYN_fields]

theorem eq_packNNN {w : Word} {c : Nibble} (h : (fieldClass w).toNat = c.toNat) : packNNN c (fieldNNN w) = w := by
  rw [← BitVec.eq_of_toNat_eq h, packNNN_fields]

theorem encode_of_decodeClass0 {w : Word} {i : Instr} (h : decodeClass0 w = .ok i) : encode i = w := by
  unfold decodeClass0 at h
  split at h
  · cases h; exact Eq.symm ‹_›
  · split at h <;> cases h
    exact Eq.symm ‹_›

theorem encode_of_decodeClass8 {w : Word} {i : Instr} (hc : (fieldClass w).toNat = 0x8)
    (h : decodeClass8 w = .ok i) : encode i = w := by
  unfold decodeClass8 at h
  split at h <;> cases h <;> exact eq_packXYN hc ‹_›

theorem encode_of_decodeClassE {w : Word} {i : Instr} (hc : (fieldClass w).toNat = 0xE)
    (h : decodeClassE w = .ok i) : encode i = w := by
  unfold decodeClassE at h
  split at h <;> cases h <;> exact eq_packXNN_of_nn hc ‹_›

theorem encode_of_decodeClassF {w : Word} {i : Instr} (hc : (fieldClass w).toNat = 0xF)
    (h : decodeClassF w = .ok i) : encode i = w := by
  unfold decodeClassF at h
  split at h <;> cases h <;> exact eq_packXNN_of_nn hc ‹_›

/-- A word that decodes is the encoding of what it decodes to. -/
theorem encode_of_decodeWord {w : Word} {i : Instr} (h : decodeWord w = .ok i) : encode i = w := by
  unfold decodeWord at h
  split at h
  case h_1 => exact encode_of_decodeClass0 h
  case h_9 => exact encode_of_decodeClass8 ‹_› h
  case h_15 => exact encode_of_decodeClassE ‹_› h
  case h_16 =>
    have := (fieldClass w).isLt
    have hc : (fieldClass w).toNat = 0xF := by
      simp only [imp_false] at *
      omega
    exact encode_of_decodeClassF hc h
  case h_6 | h_10 =>
    split at h <;> cases h
    exact eq_packXYN ‹_› (congrArg BitVec.toNat ‹_›)
  case h_14 => cases h; exact eq_packXYN ‹_› rfl
  case h_2 | h_3 | h_11 | h_12 => cases h; exact eq_packNNN ‹_›
  all_goals cases h; exact eq_packXNN ‹_›

end Sys2Proof

/-! # The fault record and the reachable machines -/

namespace Sys2Proof.Machine

/-- Whether the record describes the machine depends on memory, the parameters, pc and the latch only. -/
theorem RecordDescribes.congr {s t : State} (h : RecordDescribes s) (hmem : t.mem = s.mem) (hcfg : t.cfg = s.cfg)
    (hpc : t.pc = s.pc) (hhalt : t.halt = s.halt) : RecordDescribes t := by
  have hfetch : t.fetch16 = s.fetch16 := by simp only [State.fetch16, State.readByte, hmem, hcfg, hpc]
  intro rec hrec
  rw [hfetch, hpc]
  exact h rec (hhalt ▸ hrec)

/-- A machine with no record has none to describe it. -/
theorem RecordDescribes.of_halt_none {s : State} (h : s.halt = none) : RecordDescribes s :=
  fun rec hrec => by cases h.symm.trans hrec

/-- The record of a fetch fault describes the machine: fetching fails with its fault (R402). -/
theorem RecordDescribes.takeFault_none {s : State} {f : Fault} (h : s.fetch16 = .error f) :
    RecordDescribes (s.takeFault f none) := by
  rintro rec ⟨⟩
  exact ⟨rfl, h⟩

/-- The record of any other fault describes the machine when its word is the one fetched (R402). -/
theorem RecordDescribes.takeFault_some {s : State} {f : Fault} {w : Word} (h : s.fetch16 = .ok w) :
    RecordDescribes (s.takeFault f (some w)) := by
  rintro rec ⟨⟩
  exact ⟨rfl, h⟩

/-- A step leaves a record that describes the machine: an instruction's word is the word that was fetched. -/
theorem step_keeps_recordDescribes {s t : State} (hs : RecordDescribes s) (hstep : step s = .next t) :
    RecordDescribes t := by
  obtain ⟨-, ⟨rec, -, rfl⟩ | ⟨-, hpc, rfl⟩ | ⟨hrun, hpc, w, hfetch, hword⟩⟩ := step_cases hstep
  · exact hs.congr rfl rfl rfl rfl
  · exact .takeFault_none (State.fetch16_error hpc)
  · obtain ⟨e, -, rfl⟩ | ⟨i, hdecode, hexec⟩ := hword
    · exact .of_halt_none hrun
    · obtain ⟨f, rfl⟩ | he := exec_cases hexec
      · exact .takeFault_some (by rw [encode_of_decodeWord hdecode, hfetch])
      · exact .of_halt_none (he.frame.halt.trans hrun)

/-- After any host operation the record still describes the machine. -/
theorem apply_keeps_recordDescribes {op : HostOp} {s t : State} (hinv : Inv s) (hs : RecordDescribes s)
    (happly : op.apply s = .next t) : RecordDescribes t := by
  cases op with
  | load b =>
    obtain ⟨hphase, rfl | ⟨-, rfl⟩⟩ := load_cases happly
    · exact hs
    · exact .of_halt_none (hinv.halt_none hphase)
  | step => exact step_keeps_recordDescribes hs happly
  | tick =>
    cases happly
    exact hs.congr rfl rfl rfl rfl
  | key index pressed =>
    cases happly
    obtain ⟨keys, hkeys⟩ := setKey_eq_setKeys index pressed s
    rw [hkeys]
    exact hs.congr rfl rfl rfl rfl

/-- A step keeps the parameters. -/
theorem step_cfg {s t : State} (hstep : step s = .next t) : t.cfg = s.cfg := by
  obtain ⟨-, ⟨rec, -, rfl⟩ | ⟨-, -, rfl⟩ | ⟨-, -, w, -, ⟨e, -, rfl⟩ | ⟨i, -, hexec⟩⟩⟩ := step_cases hstep
  · rfl
  · rfl
  · rfl
  · exact (exec_frame hexec).cfg

/-- Every host operation keeps the parameters a machine was constructed with (R8). -/
theorem apply_cfg {op : HostOp} {s t : State} (happly : op.apply s = .next t) : t.cfg = s.cfg := by
  cases op with
  | load b => obtain ⟨-, rfl | ⟨-, rfl⟩⟩ := load_cases happly <;> rfl
  | step => exact step_cfg happly
  | tick => cases happly; rfl
  | key index pressed =>
    cases happly
    obtain ⟨keys, hkeys⟩ := setKey_eq_setKeys index pressed s
    rw [hkeys]
    rfl

/-- The invariant holds at construction (R500). -/
theorem Inv.construct (cfg : Config) : Inv (State.construct cfg) where
  memory := Memory.wf_construct cfg
  pcBound := by simp [State.construct]
  returns := by simp [State.construct]
  depth := fun n _ => Nat.zero_le n
  halted := by simp [State.construct]

/-- A property that holds at construction and that every host operation keeps holds of every reachable machine. -/
theorem Reachable.invariant {P : State → Prop} {cfg : Config} (hstart : P (State.construct cfg))
    (hop : ∀ op s t, P s → HostOp.apply op s = .next t → P t) {s : State} (hs : Reachable cfg s) : P s := by
  induction hs with
  | start => exact hstart
  | op s t op _ happly ih => exact hop op s t ih happly

/-- Settles O19, by induction on the schedule. -/
theorem reachableMachinesMeetTheInvariant : Obligations.ReachableMachinesMeetTheInvariant := by
  intro cfg s hs
  refine hs.invariant (P := fun s => Inv s ∧ RecordDescribes s ∧ s.cfg = cfg) ?start ?op
  case start => exact ⟨.construct cfg, .of_halt_none rfl, rfl⟩
  case op =>
    rintro op s t ⟨hinv, hrec, hcfg⟩ happly
    exact ⟨hostOperationsKeepTheInvariant op s t hinv happly, apply_keeps_recordDescribes hinv hrec happly,
      (apply_cfg happly).trans hcfg⟩

end Sys2Proof.Machine

/-! # Which instructions write what -/

namespace Sys2Proof.Machine

/-! ## Each part's writers -/

theorem I_mem_writtenParts {i : Instr} (h : .I ∈ writtenParts i) :
    (∃ nnn, i = .ldI nnn) ∨ (∃ x, i = .addIV x) ∨ ∃ x, i = .ldFV x := by
  cases i <;> simp [writtenParts] at h ⊢

theorem disp_mem_writtenParts {i : Instr} (h : .disp ∈ writtenParts i) : i = .cls ∨ ∃ x y n, i = .drw x y n := by
  cases i <;> simp [writtenParts] at h ⊢

theorem stack_mem_writtenParts {i : Instr} (h : .stack ∈ writtenParts i) : i = .ret ∨ ∃ nnn, i = .call nnn := by
  cases i <;> simp [writtenParts] at h ⊢

theorem DT_mem_writtenParts {i : Instr} (h : .DT ∈ writtenParts i) : ∃ x, i = .ldDTV x := by
  cases i <;> simp [writtenParts] at h ⊢

theorem ST_mem_writtenParts {i : Instr} (h : .ST ∈ writtenParts i) : ∃ x, i = .ldSTV x := by
  cases i <;> simp [writtenParts] at h ⊢

/-- Memory after an instruction other than FX33 and FX55 is the same list of cells. -/
theorem mem_eq_or_store {i : Instr} {s t : State} (h : exec i s = .next t) :
    t.mem = s.mem ∨ (∃ x, i = .ldBV x) ∨ ∃ x, i = .storeRegs x := by
  obtain ⟨f, rfl⟩ | he := exec_cases h
  · exact .inl rfl
  · exact he.mem_cases.imp_right And.left

/-! ## The statements -/

/-- Settles O22: I is outside the frame of every other instruction. -/
theorem indexWrittenOnlyByThree : Obligations.IndexWrittenOnlyByThree := by
  intro i s t hexec hne
  exact I_mem_writtenParts (by_contra fun hn => hne ((exec_frame hexec).I hn))

/-- Settles O23: the display is outside the frame of every other instruction. -/
theorem displayWrittenOnlyByDrawAndClear : Obligations.DisplayWrittenOnlyByDrawAndClear := by
  intro i s t hexec hne
  exact disp_mem_writtenParts (by_contra fun hn => hne ((exec_frame hexec).disp hn))

/-- Settles O24, from the frame of every instruction. -/
theorem stackMemoryTimersHaveTheirWriters : Obligations.StackMemoryTimersHaveTheirWriters := by
  intro i s t hexec
  have hframe := exec_frame hexec
  refine ⟨fun hne => ?stack, fun hne => ?mem, fun hne => ?DT, fun hne => ?ST, hframe.keys, hframe.phase, hframe.cfg⟩
  case stack => exact stack_mem_writtenParts (by_contra fun hn => hne (hframe.stack hn))
  case mem => exact (mem_eq_or_store hexec).resolve_left hne
  case DT => exact DT_mem_writtenParts (by_contra fun hn => hne (hframe.DT hn))
  case ST => exact ST_mem_writtenParts (by_contra fun hn => hne (hframe.ST hn))

/-- Settles O25: VF is outside the frame of every other instruction. Among those with one destination or a block of them,
VF is that destination or the last of the block. -/
theorem flagRegisterHasItsWriters : Obligations.FlagRegisterHasItsWriters := by
  intro i s t hexec hne
  have hF : 0xF ∈ writtenRegs i := by_contra fun hn => hne ((exec_frame hexec).regs _ hn)
  cases i
  case loadRegs x =>
    have hx : (0xF : Reg).toNat ≤ x.toNat := mem_regsUpTo.mp hF
    have hx : x = 0xF := by bv_omega
    simp [hx]
  case ldImm x _ | addImm x _ | rnd x _ | ldReg x _ | orReg x _ | andReg x _ | xorReg x _ | ldVDT x | ldVK x =>
    obtain rfl := List.mem_singleton.mp hF
    simp
  case addReg | subReg | shrReg | subnReg | shlReg | drw => simp
  all_goals exact absurd hF List.not_mem_nil

/-! # Which instructions read the keys and the sound timer -/

/-- The machine with other keys and another sound timer: what the host's operations write besides DT. -/
def State.withKeysST (s : State) (keys : Vector Bool 16) (v : Byte) : State := { s with keys := keys, ST := v }

theorem State.withKeysST_of_ST_eq {s : State} (keys : Vector Bool 16) {v : Byte} (h : s.ST = v) :
    s.withKeysST keys v = { s with keys := keys } := by
  subst h
  rfl

theorem State.withKeysST_of_keys_eq {s : State} {keys : Vector Bool 16} (v : Byte) (h : s.keys = keys) :
    s.withKeysST keys v = { s with ST := v } := by
  subst h
  rfl

/-- FX0A with no key held waits (R306). -/
theorem exec_ldVK_of_none {x : Reg} {s : State} (h : s.lowestKey = none) :
    exec (.ldVK x) s = .next (s.report .waiting) := by
  simp only [exec, execLdVK, h]

/-- FX0A with a key held stores the lowest (R306). -/
theorem exec_ldVK_of_some {x : Reg} {s : State} {k : Byte} (h : s.lowestKey = some k) :
    exec (.ldVK x) s = .next ((s.setV x k).advance.report .executed) := by
  simp only [exec, execLdVK, h, finish]

section TwoRuns

variable {keys : Vector Bool 16} {v : Byte}

/-- A committed effect in the other run, when what the effect is computed from is the same up to `r`. -/
theorem commit_map_withKeysST {α : Type} {i : Instr} {s t : State} {e e' : Except Fault α} {r : α → α}
    {f g : α → State} (he : e' = e.map r) (hf : ∀ a, g (r a) = (f a).withKeysST keys v) (h : commit i s (e.map f) = .next t) :
    commit i (s.withKeysST keys v) (e'.map g) = .next (t.withKeysST keys v) := by
  subst he
  cases e with
  | error => cases h; rfl
  | ok a =>
    cases h
    exact congrArg finish (hf a)

/-- A committed effect in the other run, when it is computed from the same value. -/
theorem commit_read_withKeysST {α : Type} {i : Instr} {s t : State} {e : Except Fault α} {f g : α → State}
    (hf : ∀ a, g a = (f a).withKeysST keys v) (h : commit i s (e.map f) = .next t) :
    commit i (s.withKeysST keys v) (e.map g) = .next (t.withKeysST keys v) :=
  commit_map_withKeysST (congrFun Except.map_id e).symm hf h

/-- Popping in the other run gives the same address. -/
theorem State.pop_withKeysST (s : State) :
    (s.withKeysST keys v).pop = s.pop.map fun p => (p.1, p.2.withKeysST keys v) := by
  rcases s.stack.eq_nil_or_concat with hst | ⟨rest, a, hst⟩
  · rw [State.pop_error hst, State.pop_error (s := s.withKeysST keys v) hst]
    rfl
  · rw [List.concat_eq_append] at hst
    rw [State.pop_ok hst, State.pop_ok (s := s.withKeysST keys v) hst]
    rfl

theorem State.push_withKeysST (s : State) (a : Word) :
    (s.withKeysST keys v).push a = (s.push a).map (·.withKeysST keys v) := by
  by_cases hlim : s.cfg.stackLimit = some s.stack.length
  · rw [State.push_error a hlim, State.push_error (s := s.withKeysST keys v) a hlim]
    rfl
  · rw [State.push_ok a hlim, State.push_ok (s := s.withKeysST keys v) a hlim]
    rfl

theorem State.writeRange_withKeysST (s : State) (base : Nat) (bs : List Byte) :
    (s.withKeysST keys v).writeRange base bs = (s.writeRange base bs).map (·.withKeysST keys v) := by
  unfold State.writeRange
  cases checkRange base bs.length <;> rfl

/-- With other keys, and any sound timer, an instruction that neither reads the keys nor writes ST does the same; with the
same keys, so do the three that read them (R36, R38). -/
theorem exec_withKeysST {i : Instr} {s t : State} (hST : ∀ x, i ≠ .ldSTV x)
    (hkeys : (∀ x, i ≠ .skp x ∧ i ≠ .sknp x ∧ i ≠ .ldVK x) ∨ keys = s.keys) (h : exec i s = .next t) :
    exec i (s.withKeysST keys v) = .next (t.withKeysST keys v) := by
  cases i
  case ret => exact commit_map_withKeysST s.pop_withKeysST (fun _ => rfl) h
  case call nnn => exact commit_map_withKeysST (s.push_withKeysST s.pc) (fun _ => rfl) h
  case ldBV x => exact commit_map_withKeysST (s.writeRange_withKeysST _ _) (fun _ => rfl) h
  case storeRegs x => exact commit_map_withKeysST (s.writeRange_withKeysST _ _) (fun _ => rfl) h
  case drw x y n => exact commit_read_withKeysST (fun _ => rfl) h
  case loadRegs x => exact commit_read_withKeysST (fun _ => rfl) h
  case skp x =>
    obtain rfl := hkeys.resolve_left fun hk => (hk x).1 rfl
    exact commit_read_withKeysST (fun _ => rfl) h
  case sknp x =>
    obtain rfl := hkeys.resolve_left fun hk => (hk x).2.1 rfl
    exact commit_read_withKeysST (fun _ => rfl) h
  case ldVK x =>
    obtain rfl := hkeys.resolve_left fun hk => (hk x).2.2 rfl
    cases hlow : s.lowestKey with
    | none =>
      rw [exec_ldVK_of_none hlow] at h
      cases h
      exact exec_ldVK_of_none hlow
    | some k =>
      rw [exec_ldVK_of_some hlow] at h
      cases h
      exact exec_ldVK_of_some hlow
  case ldSTV x => exact absurd rfl (hST x)
  all_goals cases h; rfl

end TwoRuns

/-- Settles O26. The sound timer is left as it is; FX18 alone writes it, and reads no key. -/
theorem keysMatterOnlyToKeyInstructions : Obligations.KeysMatterOnlyToKeyInstructions := by
  intro i s t keys hkeys hexec
  by_cases hST : ∃ x, i = .ldSTV x
  · obtain ⟨x, rfl⟩ := hST
    cases hexec
    rfl
  · have hkept : t.ST = s.ST := (exec_frame hexec).ST fun hmem => hST (ST_mem_writtenParts hmem)
    have hrun := exec_withKeysST (v := s.ST) (keys := keys) (fun x hx => hST ⟨x, hx⟩) (.inl hkeys) hexec
    rwa [State.withKeysST_of_ST_eq keys rfl, State.withKeysST_of_ST_eq keys hkept] at hrun

/-- Settles O27. The keys are left as they are, as every instruction leaves them. -/
theorem noInstructionReadsTheSoundTimer : Obligations.NoInstructionReadsTheSoundTimer := by
  intro i s t v hexec
  refine ⟨?writes, fun hST => ?reads⟩
  case writes =>
    rintro ⟨x, rfl⟩
    cases hexec
    rfl
  case reads =>
    have hkept : t.keys = s.keys := (exec_frame hexec).keys
    have hrun := exec_withKeysST (v := v) (keys := s.keys) hST (.inr rfl) hexec
    rwa [State.withKeysST_of_keys_eq v rfl, State.withKeysST_of_keys_eq v hkept] at hrun

end Sys2Proof.Machine

/-! # Memory: what reads determine, and what the data forms do at the end of it -/

namespace Sys2Proof.Machine

/-! ## Reading back a write of consecutive bytes (R82, R83, R87) -/

/-- The byte written last at an address is read there: the later bytes of the list go to higher addresses. -/
theorem Memory.read_writeAll_getElem (font : Font) (m : Memory) (a : Nat) (bs : List Byte) (k : Nat)
    (hk : k < bs.length) : (m.writeAll font a bs).read font (a + k) = bs[k] := by
  induction bs generalizing m a k with
  | nil => exact absurd hk (Nat.not_lt_zero k)
  | cons b bs ih =>
    rw [Memory.writeAll]
    cases k with
    | zero =>
      have hbelow : ¬ byteRange (a + 1) bs.length a := fun hin => absurd hin.1 (Nat.not_succ_le_self a)
      calc ((m.write font a b).writeAll font (a + 1) bs).read font a
        _ = (m.write font a b).read font a := Memory.read_writeAll_of_notMem _ _ _ _ _ hbelow
        _ = b := (Memory.read_write ..).trans (if_pos rfl)
    | succ k =>
      have hrest := ih (m.write font a b) (a + 1) k (Nat.lt_of_succ_lt_succ hk)
      rwa [Nat.add_assoc, Nat.add_comm 1 k] at hrest

theorem State.readByte_writeBytes_getElem (s : State) (a : Nat) (bs : List Byte) (k : Nat) (hk : k < bs.length) :
    (s.writeBytes a bs).readByte (a + k) = bs[k] :=
  Memory.read_writeAll_getElem s.cfg.font s.mem a bs k hk

theorem State.readByte_writeBytes_of_notMem (s : State) (a : Nat) (bs : List Byte) (c : Nat)
    (hc : ¬ byteRange a bs.length c) : (s.writeBytes a bs).readByte c = s.readByte c :=
  Memory.read_writeAll_of_notMem s.cfg.font s.mem a bs c hc

/-- A stored register block read back: the k-th byte is V[k] (R275). -/
theorem State.readByte_writeBytes_regBlock (s : State) (a : Nat) {x k : Reg} (hk : k.toNat ≤ x.toNat) :
    (s.writeBytes a (s.regBlock x)).readByte (a + k.toNat) = s.getV k := by
  have hlen : k.toNat < (s.regBlock x).length := by
    rw [State.regBlock_length]
    omega
  rw [State.readByte_writeBytes_getElem s a _ _ hlen, State.regBlock_getElem]

/-- Settles O20, by induction on the bytes written. -/
theorem readReturnsTheLastWrite : Obligations.ReadReturnsTheLastWrite :=
  fun s a bs => ⟨s.readByte_writeBytes_getElem a bs, s.readByte_writeBytes_of_notMem a bs⟩

/-! ## Canonical memories are determined by their reads (log 9) -/

theorem Memory.read_cons (font : Font) (a : Nat) (b : Byte) (m : Memory) (c : Nat) :
    Memory.read font ((a, b) :: m) c = if a = c then b else m.read font c := by
  simp only [Memory.read, Memory.lookup]
  split <;> rfl

/-- Below its bound, a canonical memory lists nothing and reads as at reset. -/
theorem Memory.read_of_lt {font : Font} {m : Memory} {lo c : Nat} (h : Memory.wfFrom font lo m = true) (hc : c < lo) :
    m.read font c = resetByte font c := by
  induction m generalizing lo with
  | nil => rfl
  | cons e m ih =>
    obtain ⟨a, b⟩ := e
    obtain ⟨hlo, -, -, htail⟩ := (Memory.wfFrom_cons ..).mp h
    rw [Memory.read_cons, if_neg (by omega), ih htail (by omega)]

/-- The address of the first cell is a bound of its own. -/
theorem Memory.wfFrom_head {font : Font} {m : Memory} {lo a : Nat} {b : Byte}
    (h : Memory.wfFrom font lo ((a, b) :: m) = true) : Memory.wfFrom font a ((a, b) :: m) = true :=
  (Memory.wfFrom_cons ..).mpr ⟨le_rfl, ((Memory.wfFrom_cons ..).mp h).2⟩

/-- A canonical memory that reads like one whose first cell is at `a` has its own bound at or below `a`. -/
theorem Memory.le_of_read_eq_cons {font : Font} {m m' : Memory} {lo lo' a : Nat} {b : Byte}
    (h : Memory.wfFrom font lo ((a, b) :: m) = true) (h' : Memory.wfFrom font lo' m' = true)
    (hread : Memory.read font ((a, b) :: m) a = m'.read font a) : lo' ≤ a := by
  obtain ⟨-, -, hne, -⟩ := (Memory.wfFrom_cons ..).mp h
  rw [Memory.read_cons, if_pos rfl] at hread
  exact Nat.le_of_not_lt fun hlt => hne (hread.trans (Memory.read_of_lt h' hlt))

/-- Canonical memories that start with the same cell and read alike have tails that read alike. -/
theorem Memory.read_tail_eq {font : Font} {m m' : Memory} {a : Nat} {b b' : Byte}
    (h : Memory.wfFrom font (a + 1) m = true) (h' : Memory.wfFrom font (a + 1) m' = true)
    (hread : ∀ c, Memory.read font ((a, b) :: m) c = Memory.read font ((a, b') :: m') c) (c : Nat) :
    m.read font c = m'.read font c := by
  by_cases hc : a = c
  · subst hc
    rw [Memory.read_of_lt h (Nat.lt_succ_self a), Memory.read_of_lt h' (Nat.lt_succ_self a)]
  · simpa only [Memory.read_cons, if_neg hc] using hread c

theorem Memory.eq_of_read_eq {font : Font} {m m' : Memory} {lo lo' : Nat} (h : Memory.wfFrom font lo m = true)
    (h' : Memory.wfFrom font lo' m' = true) (hread : ∀ c, m.read font c = m'.read font c) : m = m' := by
  induction m generalizing lo lo' m' with
  | nil =>
    cases m' with
    | nil => rfl
    | cons e' m' =>
      obtain ⟨a', b'⟩ := e'
      have hnil := Memory.wfFrom_nil font (a' + 1)
      exact absurd (Memory.le_of_read_eq_cons h' hnil (hread a').symm) (Nat.not_succ_le_self a')
  | cons e m ih =>
    obtain ⟨a, b⟩ := e
    cases m' with
    | nil =>
      have hnil := Memory.wfFrom_nil font (a + 1)
      exact absurd (Memory.le_of_read_eq_cons h hnil (hread a)) (Nat.not_succ_le_self a)
    | cons e' m' =>
      obtain ⟨a', b'⟩ := e'
      have hle : a' ≤ a := Memory.le_of_read_eq_cons h (Memory.wfFrom_head h') (hread a)
      have hge : a ≤ a' := Memory.le_of_read_eq_cons h' (Memory.wfFrom_head h) (hread a').symm
      obtain rfl : a = a' := Nat.le_antisymm hge hle
      obtain ⟨-, -, -, htail⟩ := (Memory.wfFrom_cons ..).mp h
      obtain ⟨-, -, -, htail'⟩ := (Memory.wfFrom_cons ..).mp h'
      have hbyte : b = b' := by simpa [Memory.read_cons] using hread a
      rw [hbyte, ih htail htail' (Memory.read_tail_eq htail htail' hread)]

/-- Settles O21: the first cells agree, and then the tails do. -/
theorem equalReadsMakeEqualMemories : Obligations.EqualReadsMakeEqualMemories :=
  fun _ _ _ h h' hread => Memory.eq_of_read_eq h h' hread

/-! ## Ranges that pass the end (R87, D12) -/

theorem State.readRange_error {s : State} {base n : Nat} (h0 : n ≠ 0) (h : 4096 < base + n) :
    s.readRange base n = .error (.dataOutOfBounds (max base 4096)) := by
  rw [State.readRange, checkRange_error h0 h]
  rfl

theorem State.writeRange_error {s : State} {base : Nat} {bs : List Byte} (h0 : bs.length ≠ 0)
    (h : 4096 < base + bs.length) : s.writeRange base bs = .error (.dataOutOfBounds (max base 4096)) := by
  rw [State.writeRange, checkRange_error h0 h]
  rfl

theorem State.writeRange_ok {s : State} {base : Nat} {bs : List Byte} (h : base + bs.length ≤ 4096) :
    s.writeRange base bs = .ok (s.writeBytes base bs) := by
  rw [State.writeRange, checkRange_ok (.inr h)]
  rfl

/-- An instruction whose access fails takes the fault, whatever it would have done next (R157, R403). -/
theorem commit_map_error {α : Type} {i : Instr} {s : State} {e : Except Fault α} {g : α → State} {f : Fault}
    (he : e = .error f) : ∃ t, commit i s (e.map g) = .next t ∧ FaultedWith s f (some (encode i)) t := by
  subst he
  exact ⟨_, rfl, rfl⟩

/-- Settles O44: each form commits what follows from one checked range. -/
theorem dataPastTheEndFaults : Obligations.DataPastTheEndFaults := by
  intro x y n s
  refine ⟨fun h => ?ldBV, fun h => ?storeRegs, fun h => ?loadRegs, fun hn h => ?drw⟩
  case ldBV =>
    have hlen : (bcdDigits (s.getV x)).length = 3 := rfl
    exact commit_map_error (State.writeRange_error (by omega) (by omega))
  case storeRegs =>
    have hlen := s.regBlock_length x
    exact commit_map_error (State.writeRange_error (by omega) (by omega))
  case loadRegs => exact commit_map_error (State.readRange_error (Nat.succ_ne_zero _) (by rw [blockSize]; omega))
  case drw =>
    have hn : n.toNat ≠ 0 := fun h0 => hn (BitVec.eq_of_toNat_eq h0)
    exact commit_map_error (State.readRange_error hn (by omega))

/-! ## Fetching what FX55 stored (R85, R95) -/

/-- FX55 within memory stores V0 to V[X] at I (R275). -/
theorem exec_storeRegs_ok {x : Reg} {s : State} (h : s.I.toNat + x.toNat ≤ 4095) :
    exec (.storeRegs x) s = .next ((s.writeBytes s.I.toNat (s.regBlock x)).advance.report .executed) := by
  have hlen := s.regBlock_length x
  rw [exec, execStoreRegs, State.writeRange_ok (by omega)]
  rfl

/-- Settles O46: the fetch at I reads the first two stored bytes, V0 as the high one. -/
theorem storedWordIsFetched : Obligations.StoredWordIsFetched := by
  intro x s t hx hend hexec
  obtain rfl : _ = t := Host.Outcome.next.inj ((exec_storeRegs_ok hend).symm.trans hexec)
  have hV0 := s.readByte_writeBytes_regBlock s.I.toNat (k := 0x0) (Nat.zero_le x.toNat)
  have hV1 := s.readByte_writeBytes_regBlock s.I.toNat (k := 0x1) hx
  rw [← hV0, ← hV1]
  exact State.fetch16_ok (s := State.setPc _ s.I) (by rw [State.setPc_pc]; omega)

end Sys2Proof.Machine

/-! # The encoding: decoder, encoder and opcode map agree (R111, R114, R115) -/

namespace Sys2Proof

/-! ## Decoding what the encoder packs -/

theorem decodeBytes_bytesOfWord_append (w : Word) (rest : List Byte) :
    decodeBytes (bytesOfWord w ++ rest) = (decodeWord w).map fun i => (i, rest) := by
  simp [bytesOfWord, decodeBytes]

/-- The decoder reads back every operand of every instruction: the class of its packed word selects the arm, and the N or
NN of the word the form within class 8, E or F. -/
theorem decodeWord_encode (i : Instr) : decodeWord (encode i) = .ok i := by
  cases i
  case cls | ret => rfl
  case jp nnn | call nnn | ldI nnn | jpV0 nnn => simp [encode, decodeWord]
  case seImm x nn | sneImm x nn | ldImm x nn | addImm x nn | rnd x nn => simp [encode, decodeWord]
  case seReg x y | sneReg x y | drw x y n => simp [encode, decodeWord]
  case ldReg x y | orReg x y | andReg x y | xorReg x y | addReg x y | subReg x y | shrReg x y | subnReg x y | shlReg x y =>
    simp [encode, decodeWord, decodeClass8]
  case skp x | sknp x => simp [encode, decodeWord, decodeClassE]
  all_goals simp [encode, decodeWord, decodeClassF]

theorem encode_injective {i j : Instr} (h : encode i = encode j) : i = j :=
  Except.ok.inj (by rw [← decodeWord_encode i, h, decodeWord_encode j])

/-- Settles O1, by the decoder's answer on each packed word. -/
theorem decodeOfEncodeIsTheInstruction : Obligations.DecodeOfEncodeIsTheInstruction := by
  intro i rest _
  rw [encodeBytes, decodeBytes_bytesOfWord_append, decodeWord_encode]
  rfl

/-- Settles O2. -/
theorem encodeOfDecodeIsTheWord : Obligations.EncodeOfDecodeIsTheWord :=
  fun _ _ => encode_of_decodeWord

/-! ## A word under a mask of R114 determines the fields the mask keeps -/

theorem eq_packNNN_of_and {w : Word} {c : Nibble} (h : w &&& 0xF000 = packNNN c 0) : packNNN c (fieldNNN w) = w := by
  rw [← packNNN_fields w, packNNN_and_F000] at h
  have hc : fieldClass w = c := by simpa using congrArg fieldClass h
  exact eq_packNNN (congrArg BitVec.toNat hc)

theorem eq_packXNN_of_and_F000 {w : Word} {c : Nibble} (h : w &&& 0xF000 = packXNN c 0 0) :
    packXNN c (fieldX w) (fieldNN w) = w := by
  rw [← packXNN_fields w, packXNN_and_F000] at h
  have hc : fieldClass w = c := by simpa using congrArg fieldClass h
  exact eq_packXNN (congrArg BitVec.toNat hc)

theorem eq_packXNN_of_and_F0FF {w : Word} {c : Nibble} {nn : Byte} (h : w &&& 0xF0FF = packXNN c 0 nn) :
    packXNN c (fieldX w) nn = w := by
  rw [← packXNN_fields w, packXNN_and_F0FF] at h
  have hc : fieldClass w = c := by simpa using congrArg fieldClass h
  have hnn : fieldNN w = nn := by simpa using congrArg fieldNN h
  exact eq_packXNN_of_nn (congrArg BitVec.toNat hc) (congrArg BitVec.toNat hnn)

theorem eq_packXYN_of_and_F000 {w : Word} {c : Nibble} (h : w &&& 0xF000 = packXYN c 0 0 0) :
    packXYN c (fieldX w) (fieldY w) (fieldN w) = w := by
  rw [← packXYN_fields w, packXYN_and_F000] at h
  have hc : fieldClass w = c := by simpa using congrArg fieldClass h
  exact eq_packXYN (congrArg BitVec.toNat hc) rfl

theorem eq_packXYN_of_and_F00F {w : Word} {c n : Nibble} (h : w &&& 0xF00F = packXYN c 0 0 n) :
    packXYN c (fieldX w) (fieldY w) n = w := by
  rw [← packXYN_fields w, packXYN_and_F00F] at h
  have hc : fieldClass w = c := by simpa using congrArg fieldClass h
  have hn : fieldN w = n := by simpa using congrArg fieldN h
  exact eq_packXYN (congrArg BitVec.toNat hc) (congrArg BitVec.toNat hn)

/-! ## The rows of the opcode map and the instructions -/

/-- The instruction each row of R114 reads a word as, in the table's order. -/
def rowReadings (w : Word) : List Instr :=
  [.cls, .ret, .jp (fieldNNN w), .call (fieldNNN w), .seImm (fieldX w) (fieldNN w), .sneImm (fieldX w) (fieldNN w),
   .seReg (fieldX w) (fieldY w), .ldImm (fieldX w) (fieldNN w), .addImm (fieldX w) (fieldNN w),
   .ldReg (fieldX w) (fieldY w), .orReg (fieldX w) (fieldY w), .andReg (fieldX w) (fieldY w),
   .xorReg (fieldX w) (fieldY w), .addReg (fieldX w) (fieldY w), .subReg (fieldX w) (fieldY w),
   .shrReg (fieldX w) (fieldY w), .subnReg (fieldX w) (fieldY w), .shlReg (fieldX w) (fieldY w),
   .sneReg (fieldX w) (fieldY w), .ldI (fieldNNN w), .jpV0 (fieldNNN w), .rnd (fieldX w) (fieldNN w),
   .drw (fieldX w) (fieldY w) (fieldN w), .skp (fieldX w), .sknp (fieldX w), .ldVDT (fieldX w), .ldVK (fieldX w),
   .ldDTV (fieldX w), .ldSTV (fieldX w), .addIV (fieldX w), .ldFV (fieldX w), .ldBV (fieldX w), .storeRegs (fieldX w),
   .loadRegs (fieldX w)]

theorem map_row_rowReadings (w : Word) : (rowReadings w).map Instr.row = opTable := rfl

/-- The reading of a row that accepts the word encodes to the word: the mask keeps every bit that no operand holds. -/
theorem encode_rowReading {w : Word} {i : Instr} (hi : i ∈ rowReadings w) (h : i.row.accepts w = true) :
    encode i = w := by
  have hand : w &&& i.row.mask = i.row.value := eq_of_beq h
  cases i
  case cls | ret => exact hand.symm.trans (BitVec.and_allOnes (x := w))
  case jp nnn | call nnn | ldI nnn | jpV0 nnn =>
    obtain rfl : nnn = fieldNNN w := by simpa [rowReadings] using hi
    exact eq_packNNN_of_and hand
  case seImm x nn | sneImm x nn | ldImm x nn | addImm x nn | rnd x nn =>
    obtain ⟨rfl, rfl⟩ : x = fieldX w ∧ nn = fieldNN w := by simpa [rowReadings] using hi
    exact eq_packXNN_of_and_F000 hand
  case drw x y n =>
    obtain ⟨rfl, rfl, rfl⟩ : x = fieldX w ∧ y = fieldY w ∧ n = fieldN w := by simpa [rowReadings] using hi
    exact eq_packXYN_of_and_F000 hand
  case skp x | sknp x | ldVDT x | ldVK x | ldDTV x | ldSTV x | addIV x | ldFV x | ldBV x | storeRegs x | loadRegs x =>
    obtain rfl : x = fieldX w := by simpa [rowReadings] using hi
    exact eq_packXNN_of_and_F0FF hand
  all_goals
    rename_i x y
    obtain ⟨rfl, rfl⟩ : x = fieldX w ∧ y = fieldY w := by simpa [rowReadings] using hi
    exact eq_packXYN_of_and_F00F hand

/-- A word that a row accepts is the encoding of an instruction of that row. -/
theorem exists_encode_of_accepts {w : Word} {r : OpRow} (hr : r ∈ opTable) (h : r.accepts w = true) :
    ∃ i : Instr, i.row = r ∧ encode i = w := by
  rw [← map_row_rowReadings w] at hr
  obtain ⟨i, hi, rfl⟩ := List.mem_map.mp hr
  exact ⟨i, rfl, encode_rowReading hi h⟩

open Laws.RowMatch in
/-- The per-instruction facts of Laws/PerInstr, for every instruction. -/
theorem rowMatch (i : Instr) : Laws.RowMatch.Statement i := by
  cases i
  exacts [cls, ret, jp _, call _, seImm _ _, sneImm _ _, seReg _ _, ldImm _ _, addImm _ _, ldReg _ _, orReg _ _,
    andReg _ _, xorReg _ _, addReg _ _, subReg _ _, shrReg _ _, subnReg _ _, shlReg _ _, sneReg _ _, ldI _, jpV0 _,
    rnd _ _, drw _ _ _, skp _, sknp _, ldVDT _, ldVK _, ldDTV _, ldSTV _, addIV _, ldFV _, ldBV _, storeRegs _,
    loadRegs _]

/-- Every instruction's row is in the map, and accepts the instruction's word. -/
theorem row_mem_and_accepts_encode (i : Instr) : i.row ∈ opTable ∧ i.row.accepts (encode i) = true :=
  (rowMatch i).imp_left List.contains_iff_mem.mp

/-! ## What the decoder rejects -/

/-- The decoder rejects a word only by naming it as unknown (R115). -/
theorem error_of_decodeWord {w : Word} {e : Reject} (h : decodeWord w = .error e) : e = .unknownWord w := by
  unfold decodeWord at h
  split at h
  case h_1 =>
    unfold decodeClass0 at h
    split at h
    · cases h
    · split at h <;> cases h
      rfl
  case h_9 | h_15 | h_16 =>
    simp only [decodeClass8, decodeClassE, decodeClassF] at h
    split at h <;> cases h
    rfl
  case h_6 | h_10 =>
    split at h <;> cases h
    rfl
  all_goals cases h

/-! ## The opcode map -/

/-- Settles O3. An accepted word is an encoding, so it decodes; a word that decodes is an encoding, so a row accepts it. -/
theorem decoderAcceptsExactlyTheTable : Obligations.DecoderAcceptsExactlyTheTable := by
  intro w
  have hrow : ∀ i, decodeWord w = .ok i → i.row ∈ opTable ∧ i.row.accepts w = true := by
    intro i hi
    have hmatch := row_mem_and_accepts_encode i
    rwa [encode_of_decodeWord hi] at hmatch
  refine ⟨hrow, ?accepted, ?unknown⟩
  case accepted =>
    rintro ⟨r, hr, haccepts⟩
    obtain ⟨i, -, rfl⟩ := exists_encode_of_accepts hr haccepts
    exact ⟨i, decodeWord_encode i⟩
  case unknown =>
    intro hnone
    cases hd : decodeWord w with
    | error e => rw [error_of_decodeWord hd]
    | ok i =>
      obtain ⟨hmem, haccepts⟩ := hrow i hd
      exact absurd haccepts (by simp [hnone _ hmem])

/-- Settles O4. Both rows read the word as the one instruction that encodes to it. -/
theorem tableRowsDoNotOverlap : Obligations.TableRowsDoNotOverlap := by
  intro w r r' hr hr' h h'
  obtain ⟨i, rfl, hi⟩ := exists_encode_of_accepts hr h
  obtain ⟨j, rfl, hj⟩ := exists_encode_of_accepts hr' h'
  rw [encode_injective (hi.trans hj.symm)]

/-- Settles O5, by running the decoder and the fields on the seven words. -/
theorem exampleWordsDecode : Obligations.ExampleWordsDecode := by
  unfold Obligations.ExampleWordsDecode
  decide

end Sys2Proof

/-! # The engine cycle: what a step answers (R150 to R158) -/

namespace Sys2Proof.Machine

/-! ## A step, by the phase, the latch and the fetch -/

theorem step_of_constructed {s : State} (h : s.phase = .constructed) : step s = .refused .stepBeforeLoad := by
  simp only [step, engineStep, h]

theorem step_of_halted {s : State} {rec : FaultRecord} (hphase : s.phase = .loaded) (hhalt : s.halt = some rec) :
    step s = .next (s.report (.halted rec)) := by
  simp only [step, engineStep, hphase, hhalt]

theorem step_of_ready {s : State} (h : Ready s) : step s = runningStep s := by
  obtain ⟨hphase, hhalt⟩ := h
  simp only [step, engineStep, hphase, hhalt]

/-- A ready machine whose fetch succeeds runs the word it fetched. -/
theorem step_of_fetch_ok {s : State} {w : Word} (h : Ready s) (hfetch : s.fetch16 = .ok w) : step s = runWord w s := by
  rw [step_of_ready h, runningStep, hfetch]

/-- A ready machine whose fetch fails takes the fault, with no word in its record. -/
theorem step_of_fetch_error {s : State} {f : Fault} (h : Ready s) (hfetch : s.fetch16 = .error f) :
    step s = .next (s.takeFault f none) := by
  rw [step_of_ready h, runningStep, hfetch]

theorem runWord_of_decode_ok {w : Word} {i : Instr} (s : State) (h : decodeWord w = .ok i) :
    runWord w s = exec i s := by
  rw [runWord, h]

theorem runWord_of_decode_error {w : Word} {e : Reject} (s : State) (h : decodeWord w = .error e) :
    runWord w s = .next (s.skipUnknown w) := by
  rw [runWord, h]

/-! ## Every instruction answers a next state -/

theorem commit_answers_next (i : Instr) (s : State) (e : Except Fault State) : ∃ t, commit i s e = .next t := by
  cases e <;> exact ⟨_, rfl⟩

/-- An instruction that can fault commits; FX0A looks for a key; every other instruction finishes. -/
theorem exec_answers_next (i : Instr) (s : State) : ∃ t, exec i s = .next t := by
  cases i
  case ret | call nnn | drw x y n | skp x | sknp x | ldBV x | storeRegs x | loadRegs x =>
    exact commit_answers_next _ s _
  case ldVK x =>
    cases hlow : s.lowestKey with
    | none => exact ⟨_, exec_ldVK_of_none hlow⟩
    | some k => exact ⟨_, exec_ldVK_of_some hlow⟩
  all_goals exact ⟨_, rfl⟩

theorem runWord_answers_next (w : Word) (s : State) : ∃ t, runWord w s = .next t := by
  cases hdecode : decodeWord w with
  | ok i =>
    rw [runWord_of_decode_ok s hdecode]
    exact exec_answers_next i s
  | error e => exact ⟨_, runWord_of_decode_error s hdecode⟩

theorem step_answers_next {s : State} (hphase : s.phase = .loaded) : ∃ t, step s = .next t := by
  cases hhalt : s.halt with
  | some rec => exact ⟨_, step_of_halted hphase hhalt⟩
  | none =>
    cases hfetch : s.fetch16 with
    | error f => exact ⟨_, step_of_fetch_error ⟨hphase, hhalt⟩ hfetch⟩
    | ok w =>
      rw [step_of_fetch_ok ⟨hphase, hhalt⟩ hfetch]
      exact runWord_answers_next w s

/-- Settles O10, by the latch, the fetch and the decoder of a loaded machine. -/
theorem stepIsRefusedOnlyBeforeLoad : Obligations.StepIsRefusedOnlyBeforeLoad :=
  fun _ => ⟨step_of_constructed, step_answers_next⟩

/-! ## What an effect reports, and where it leaves pc -/

/-- An effect is reported as executed, or it is FX0A waiting (R158, R306). -/
theorem EffectOf.outcome_cases {i : Instr} {s t : State} (h : EffectOf i s t) :
    t.outcome = some .executed ∨ ((∃ x, i = .ldVK x) ∧ t = s.report .waiting) := by
  cases i
  case ldVK x =>
    obtain ⟨-, rfl⟩ | ⟨k, -, rfl⟩ := h
    · exact .inr ⟨⟨x, rfl⟩, rfl⟩
    · exact .inl rfl
  case ret => obtain ⟨a, rest, -, rfl⟩ := h; exact .inl rfl
  case skp x | sknp x => obtain ⟨held, -, rfl⟩ := h; exact .inl rfl
  case call nnn | ldBV x | storeRegs x | loadRegs x | drw x y n => obtain ⟨-, rfl⟩ := h; exact .inl rfl
  all_goals cases h; exact .inl rfl

/-- Settles O11: an instruction faults or has its effect, and an effect keeps the latch. -/
theorem instructionRunsWaitsOrFaults : Obligations.InstructionRunsWaitsOrFaults := by
  intro i s
  obtain ⟨t, hexec⟩ := exec_answers_next i s
  refine ⟨t, hexec, ?_⟩
  obtain ⟨f, hfault⟩ | heffect := exec_cases hexec
  · exact .inr (.inr ⟨f, hfault⟩)
  · obtain hout | hwait := heffect.outcome_cases
    · exact .inl ⟨hout, heffect.frame.halt⟩
    · exact .inr (.inl hwait)

/-- The instructions that set pc themselves: the jumps, CALL, RET and the skips (R155). -/
def choosesPc : Instr → Bool
  | .ret | .jp _ | .call _ | .jpV0 _ | .seImm _ _ | .sneImm _ _ | .seReg _ _ | .sneReg _ _ | .skp _ | .sknp _ => true
  | _ => false

theorem choosesPc_cases {i : Instr} (h : choosesPc i = true) :
    i = .ret ∨ (∃ nnn, i = .jp nnn ∨ i = .call nnn ∨ i = .jpV0 nnn) ∨
    (∃ x nn, i = .seImm x nn ∨ i = .sneImm x nn) ∨ (∃ x y, i = .seReg x y ∨ i = .sneReg x y) ∨
    ∃ x, i = .skp x ∨ i = .sknp x := by
  cases i <;> simp [choosesPc] at h ⊢

/-- Every other effect that runs to completion advances pc by 2 (R155). -/
theorem EffectOf.pc_eq_add_two {i : Instr} {s t : State} (h : EffectOf i s t) (hi : choosesPc i = false)
    (hout : t.outcome = some .executed) : t.pc = s.pc + 2 := by
  cases i
  case ret | jp | call | jpV0 | seImm | sneImm | seReg | sneReg | skp | sknp => cases hi
  case ldVK x =>
    obtain ⟨-, rfl⟩ | ⟨k, -, rfl⟩ := h
    · cases hout
    · rfl
  case ldBV x | storeRegs x | loadRegs x | drw x y n => obtain ⟨-, rfl⟩ := h; rfl
  all_goals cases h; rfl

/-- From a pc that was fetched, the advance by 2 does not wrap (R155). -/
theorem toNat_add_two {pc : Word} (h : pc.toNat ≤ 4094) : (pc + 2).toNat = pc.toNat + 2 := by
  bv_omega

/-- Settles O14: a fault is not reported as executed, and an effect advances pc or chooses it. -/
theorem defaultAdvanceIsTwoBytes : Obligations.DefaultAdvanceIsTwoBytes := by
  intro i s t hpc hexec hout
  obtain ⟨f, rfl⟩ | heffect := exec_cases hexec
  · cases hout
  · cases hi : choosesPc i with
    | true => exact .inr (choosesPc_cases hi)
    | false =>
      rw [heffect.pc_eq_add_two hi hout]
      exact .inl (toNat_add_two hpc)

/-! ## The steps of a ready machine and of a halted one -/

/-- A word of no row of the opcode map is rejected as unknown (R115). -/
theorem decodeWord_of_not_legal {w : Word} (h : legalWord w = false) : decodeWord w = .error (.unknownWord w) := by
  obtain ⟨-, -, hunknown⟩ := decoderAcceptsExactlyTheTable w
  exact hunknown (by simpa [legalWord] using h)

/-- Settles O7: the step reports the word after the default advance. -/
theorem unknownWordIsSkipped : Obligations.UnknownWordIsSkipped := by
  rintro s w hready hpc rfl hunknown
  refine ⟨s.skipUnknown _, ?step, toNat_add_two hpc, rfl, rfl, rfl, Frame.refl.advance.report _⟩
  case step =>
    rw [step_of_fetch_ok hready (State.fetch16_ok hpc)]
    exact runWord_of_decode_error s (decodeWord_of_not_legal hunknown)

/-- Two bytes that decode are the bytes of a word that decodes (R85, R110). -/
theorem decodeWord_of_decodeBytes {hi lo : Byte} {i : Instr} {rest : List Byte}
    (h : decodeBytes [hi, lo] = .ok (i, rest)) : decodeWord (wordOfBytes hi lo) = .ok i := by
  rw [decodeBytes] at h
  cases hdecode : decodeWord (wordOfBytes hi lo) with
  | ok j => rw [hdecode] at h; cases h; rfl
  | error e => rw [hdecode] at h; cases h

/-- Settles O6: the fetched word is the one the two bytes at pc decode as. -/
theorem stepRunsTheDecodedInstruction : Obligations.StepRunsTheDecodedInstruction := by
  intro s i hready hpc hdecode
  rw [step_of_fetch_ok hready (State.fetch16_ok hpc)]
  exact runWord_of_decode_ok s (decodeWord_of_decodeBytes hdecode)

/-- Settles O8. -/
theorem fetchPastTheEndFaults : Obligations.FetchPastTheEndFaults :=
  fun s hready hpc => ⟨_, step_of_fetch_error hready (State.fetch16_error hpc), s.takeFault_eq _ _⟩

/-- Settles O9. -/
theorem haltedStepChangesNothing : Obligations.HaltedStepChangesNothing :=
  fun _ _ hphase hhalt => ⟨_, step_of_halted hphase hhalt, rfl⟩

end Sys2Proof.Machine

/-! # Control transfer: jumps, skips, CALL and RET (R200 to R210) -/

namespace Sys2Proof.Machine

/-! ## CALL and RET (R201 to R203, R205) -/

/-- CALL below the limit pushes its own address and jumps (R205). -/
theorem exec_call_ok {s : State} (nnn : Addr12) (h : s.cfg.stackLimit ≠ some s.stack.length) :
    exec (.call nnn) s = .next (((s.setStack (s.stack ++ [s.pc])).setPc (addrOf nnn)).report .executed) := by
  rw [exec, execCall, State.push_ok s.pc h]
  rfl

/-- RET pops the last return address and continues 2 past it (R203). -/
theorem exec_ret_ok {s : State} {rest : List Word} {a : Word} (h : s.stack = rest ++ [a]) :
    exec .ret s = .next (((s.setStack rest).setPc (a + 2)).report .executed) := by
  rw [exec, execRet, State.pop_ok h]
  rfl

/-- Settles O33: the last entry of the stack CALL left is CALL's own pc, which RET pops. -/
theorem retUndoesCall : Obligations.RetUndoesCall := by
  intro nnn s t u hpc hlimit hexec hstack
  obtain rfl : _ = t := Host.Outcome.next.inj ((exec_call_ok nnn hlimit).symm.trans hexec)
  have hpushed : u.stack = s.stack ++ [s.pc] := hstack
  exact ⟨_, exec_ret_ok hpushed, toNat_add_two hpc, rfl, rfl, rfl⟩

/-- Settles O31: the advance past a CALL that was fetched does not wrap. -/
theorem retGoesPastTheCall : Obligations.RetGoesPastTheCall :=
  fun _ _ _ hstack ha =>
    ⟨_, exec_ret_ok hstack, rfl, toNat_add_two ha, rfl, ((Frame.refl.setStack (.head _) _).setPc _).report _⟩

/-- Settles O32: RET commits what follows from the pop, which fails. -/
theorem retOnEmptyStackFaults : Obligations.RetOnEmptyStackFaults :=
  fun _ hempty => commit_map_error (State.pop_error hempty)

/-! ## The targets of JP and CALL (R112, R201, R204, R205, R210) -/

@[simp] theorem toNat_addrOf (nnn : Addr12) : (addrOf nnn).toNat = nnn.toNat :=
  BitVec.toNat_setWidth_of_le (by decide)

@[simp] theorem toNat_wordOfByte (v : Byte) : (wordOfByte v).toNat = v.toNat :=
  BitVec.toNat_setWidth_of_le (by decide)

/-- The sum of a 12-bit address and a byte fits a word (R210). -/
theorem toNat_addrOf_add_wordOfByte (nnn : Addr12) (v : Byte) :
    (addrOf nnn + wordOfByte v).toNat = nnn.toNat + v.toNat := by
  have hnnn := nnn.isLt
  have hv := v.isLt
  rw [BitVec.toNat_add, toNat_addrOf, toNat_wordOfByte, Nat.mod_eq_of_lt (by omega)]

/-- Settles O29. -/
theorem jumpsGoToTheirTargets : Obligations.JumpsGoToTheirTargets :=
  fun nnn s =>
    ⟨⟨_, rfl, toNat_addrOf nnn, rfl, (Frame.refl.setPc _).report _⟩,
     ⟨_, rfl, toNat_addrOf_add_wordOfByte nnn (s.getV 0x0), rfl, (Frame.refl.setPc _).report _⟩⟩

/-- Settles O30, by whether the stack admits the push. -/
theorem callPushesItsOwnAddress : Obligations.CallPushesItsOwnAddress := by
  intro nnn s
  refine ⟨fun hbelow => ?pushes, fun hfull => ?faults⟩
  case pushes =>
    exact ⟨_, exec_call_ok nnn hbelow, rfl, toNat_addrOf nnn, rfl,
      ((Frame.refl.setStack (.head _) _).setPc _).report _⟩
  case faults => exact commit_map_error (State.push_error s.pc hfull)

/-! ## Skips (R200, R206 to R209) -/

/-- A skip on equality (R206, R208). -/
theorem State.skipIf_beq_pc (s : State) (a b : Byte) :
    (s.skipIf (a == b)).pc = if a = b then s.pc + 4 else s.pc + 2 := by
  simp only [State.skipIf, State.setPc_pc, beq_iff_eq]

/-- A skip on inequality (R207, R209). -/
theorem State.skipIf_bne_pc (s : State) (a b : Byte) :
    (s.skipIf (a != b)).pc = if a = b then s.pc + 2 else s.pc + 4 := by
  simp only [State.skipIf, State.setPc_pc, bne_iff_ne, ne_eq, ite_not]

/-- An instruction that only skips completes at the pc its condition chooses and keeps everything else (R200). -/
theorem completes_of_exec_eq_skipIf {i : Instr} {s : State} {c : Bool} {target : Word}
    (hexec : exec i s = finish (s.skipIf c)) (htarget : (s.skipIf c).pc = target) :
    ∃ t, exec i s = .next t ∧ t.pc = target ∧ t.outcome = some .executed ∧ Frame [] noBytes [] s t :=
  ⟨_, hexec, htarget, rfl, (Frame.refl.skipIf c).report _⟩

/-- Settles O28: SE skips on equality, SNE on inequality. -/
theorem compareSkipsChooseTheNextPc : Obligations.CompareSkipsChooseTheNextPc :=
  fun x y nn s =>
    ⟨completes_of_exec_eq_skipIf rfl (s.skipIf_beq_pc (s.getV x) nn),
     completes_of_exec_eq_skipIf rfl (s.skipIf_bne_pc (s.getV x) nn),
     completes_of_exec_eq_skipIf rfl (s.skipIf_beq_pc (s.getV x) (s.getV y)),
     completes_of_exec_eq_skipIf rfl (s.skipIf_bne_pc (s.getV x) (s.getV y))⟩

end Sys2Proof.Machine

/-! # The register instructions and RND (R230 to R243) -/

namespace Sys2Proof.Machine

/-! ## What completing leaves behind, for one destination and for a result with a flag (R231, R155) -/

/-- An instruction that only writes V[X] completes with V[X] as the value written is, and keeps everything else. -/
theorem completes_of_exec_eq_setV {P : Byte → Prop} {i : Instr} {s : State} {x : Reg} {v : Byte}
    (hexec : exec i s = finish (s.setV x v).advance) (hv : P v) :
    ∃ t, exec i s = .next t ∧ P (t.getV x) ∧ t.pc = s.pc + 2 ∧ t.outcome = some .executed ∧
      Frame [x] noBytes [] s t := by
  refine ⟨_, hexec, ?value, rfl, rfl, (Frame.refl.setV (.head _) v).advance.report _⟩
  case value => exact (s.getV_setV_self x v).symm ▸ hv

/-- An instruction that writes a result and then a flag completes with VF as the flag is and, unless the flag overwrote it,
V[X] as the result is (D9). -/
theorem completes_of_exec_eq_setResultFlag {P Q : Byte → Prop} {i : Instr} {s : State} {x : Reg} {v : Byte} {c : Bool}
    (hexec : exec i s = finish (s.setResultFlag x v c).advance) (hv : P v) (hc : Q (flagByte c)) :
    ∃ t, exec i s = .next t ∧ (x ≠ 0xF → P (t.getV x)) ∧ Q (t.getV 0xF) ∧ t.pc = s.pc + 2 ∧
      t.outcome = some .executed ∧ Frame [x, 0xF] noBytes [] s t := by
  refine ⟨_, hexec, fun hx => ?result, ?flag, rfl, rfl,
    (Frame.refl.setResultFlag (.head _) (.tail _ (.head _)) v c).advance.report _⟩
  case result =>
    have hkept : (s.setResultFlag x v c).getV x = v :=
      (State.getV_setV_ne _ _ (Ne.symm hx)).trans (s.getV_setV_self x v)
    exact hkept.symm ▸ hv
  case flag => exact ((s.setV x v).getV_setV_self VF (flagByte c)).symm ▸ hc

/-! ## Results and flags as numbers (R230, R240, R242) -/

theorem flagByte_decide (p : Prop) [Decidable p] : flagByte (decide p) = if p then 1 else 0 := by
  simp only [flagByte, decide_eq_true_eq]

theorem toNat_flagByte (c : Bool) : (flagByte c).toNat = c.toNat := by
  cases c <;> rfl

/-- A difference of bytes wraps to the remainder of the exact difference, also where that is negative (R230). -/
theorem toNat_sub_eq_emod (a b : Byte) : ((a - b).toNat : Int) = (a.toNat - b.toNat : Int) % 256 := by
  have ha := a.isLt
  have hb := b.isLt
  rw [BitVec.toNat_sub]
  omega

theorem toNat_shiftRight_one (v : Byte) : (v >>> 1).toNat = v.toNat / 2 := by
  rw [BitVec.toNat_ushiftRight, Nat.shiftRight_one]

theorem toNat_shiftLeft_one (v : Byte) : (v <<< 1).toNat = 2 * v.toNat % 256 := by
  rw [BitVec.toNat_shiftLeft, Nat.shiftLeft_eq, Nat.mul_comm]

theorem toNat_flagByte_shiftedOutRight (v : Byte) : (flagByte (shiftedOutRight v)).toNat = v.toNat % 2 := by
  calc (flagByte (shiftedOutRight v)).toNat
    _ = (v.toNat.testBit 0).toNat := toNat_flagByte _
    _ = v.toNat / 2 ^ 0 % 2 := Nat.toNat_testBit ..
    _ = v.toNat % 2 := by rw [Nat.pow_zero, Nat.div_one]

/-- Bit 7 is the whole quotient by 128, since nothing of a byte is above it. -/
theorem toNat_flagByte_shiftedOutLeft (v : Byte) : (flagByte (shiftedOutLeft v)).toNat = v.toNat / 128 := by
  have hv := v.isLt
  calc (flagByte (shiftedOutLeft v)).toNat
    _ = (v.toNat.testBit 7).toNat := toNat_flagByte _
    _ = v.toNat / 2 ^ 7 % 2 := Nat.toNat_testBit ..
    _ = v.toNat / 128 := by omega

/-! ## The statements -/

/-- Settles O35: OR, AND and XOR of bytes act on each bit. -/
theorem logicWritesOnlyItsDestination : Obligations.LogicWritesOnlyItsDestination :=
  fun x y s =>
    ⟨completes_of_exec_eq_setV (P := fun v => ∀ k < 8, v.getLsbD k = ((s.getV x).getLsbD k || (s.getV y).getLsbD k)) rfl
      fun _ _ => BitVec.getLsbD_or,
     completes_of_exec_eq_setV (P := fun v => ∀ k < 8, v.getLsbD k = ((s.getV x).getLsbD k && (s.getV y).getLsbD k)) rfl
      fun _ _ => BitVec.getLsbD_and,
     completes_of_exec_eq_setV (P := fun v => ∀ k < 8, v.getLsbD k = ((s.getV x).getLsbD k != (s.getV y).getLsbD k)) rfl
      fun _ _ => BitVec.getLsbD_xor⟩

/-- Settles O36: each result wraps, and each flag decides its comparison of the operands. -/
theorem addAndSubtractSetTheFlag : Obligations.AddAndSubtractSetTheFlag :=
  fun x y s =>
    ⟨completes_of_exec_eq_setResultFlag (P := fun v => v.toNat = _) (Q := fun f => f = _) rfl
      (BitVec.toNat_add (s.getV x) (s.getV y)) (flagByte_decide _),
     completes_of_exec_eq_setResultFlag (P := fun v => (v.toNat : Int) = _) (Q := fun f => f = _) rfl
      (toNat_sub_eq_emod (s.getV x) (s.getV y)) (flagByte_decide _),
     completes_of_exec_eq_setResultFlag (P := fun v => (v.toNat : Int) = _) (Q := fun f => f = _) rfl
      (toNat_sub_eq_emod (s.getV y) (s.getV x)) (flagByte_decide _)⟩

/-- Settles O37: result and flag are both of the source as it was, whatever X is. -/
theorem shiftsReadTheSourceRegister : Obligations.ShiftsReadTheSourceRegister :=
  fun _ y s =>
    ⟨completes_of_exec_eq_setResultFlag (P := fun v => v.toNat = _) (Q := fun f => f.toNat = _) rfl
      (toNat_shiftRight_one (s.getV y)) (toNat_flagByte_shiftedOutRight (s.getV y)),
     completes_of_exec_eq_setResultFlag (P := fun v => v.toNat = _) (Q := fun f => f.toNat = _) rfl
      (toNat_shiftLeft_one (s.getV y)) (toNat_flagByte_shiftedOutLeft (s.getV y))⟩

/-- Settles O34: the value written is NN, the wrapped sum, and V[Y]. -/
theorem loadsAndImmediateAdd : Obligations.LoadsAndImmediateAdd :=
  fun x _ nn s =>
    ⟨completes_of_exec_eq_setV (P := fun v => v = _) rfl rfl,
     completes_of_exec_eq_setV (P := fun v => v.toNat = _) rfl (BitVec.toNat_add (s.getV x) nn),
     completes_of_exec_eq_setV (P := fun v => v = _) rfl rfl⟩

/-- Settles O38: a zero mask clears the byte, whatever it is. -/
theorem randomByteIsMasked : Obligations.RandomByteIsMasked := by
  intro x nn s
  refine ⟨_, rfl, s.getV_setV_self x _, fun hzero => ?zero, rfl, rfl, rfl,
    ((Frame.refl.setV (.head _) _).advance.countDraw (.head _)).report _⟩
  case zero =>
    calc (s.setV x (s.rnd &&& nn)).getV x
      _ = s.rnd &&& nn := s.getV_setV_self x _
      _ = 0 := by rw [hzero]; exact BitVec.and_zero

end Sys2Proof.Machine

/-! # The index register and memory (R270 to R276) -/

namespace Sys2Proof.Machine

/-! ## Writing the index register (R271 to R273) -/

/-- An instruction that only writes I completes with I as the value written is, and keeps everything else. -/
theorem completes_of_exec_eq_setI {P : Word → Prop} {i : Instr} {s : State} {v : Word}
    (hexec : exec i s = finish (s.setI v).advance) (hv : P v) :
    ∃ t, exec i s = .next t ∧ P t.I ∧ t.pc = s.pc + 2 ∧ t.outcome = some .executed ∧ Frame [] noBytes [.I] s t :=
  ⟨_, hexec, hv, rfl, rfl, (Frame.refl.setI (.head _) v).advance.report _⟩

/-- Five times a byte fits a word (R273). -/
theorem toNat_wordOfByte_mul_five (v : Byte) : (wordOfByte v * 5).toNat = v.toNat * 5 := by
  have hv := v.isLt
  calc (wordOfByte v * 5).toNat
    _ = v.toNat * 5 % 65536 := by rw [BitVec.toNat_mul, toNat_wordOfByte]; rfl
    _ = v.toNat * 5 := Nat.mod_eq_of_lt (by omega)

theorem toNat_add_wordOfByte (w : Word) (v : Byte) : (w + wordOfByte v).toNat = (w.toNat + v.toNat) % 65536 := by
  rw [BitVec.toNat_add, toNat_wordOfByte]

/-- Settles O39. -/
theorem indexLoads : Obligations.IndexLoads :=
  fun nnn x s =>
    ⟨completes_of_exec_eq_setI (P := fun v => v.toNat = _) rfl (toNat_addrOf nnn),
     completes_of_exec_eq_setI (P := fun v => v.toNat = _) rfl (toNat_wordOfByte_mul_five (s.getV x))⟩

/-- Settles O40. -/
theorem addToIndexWraps : Obligations.AddToIndexWraps :=
  fun x s => completes_of_exec_eq_setI (P := fun v => v.toNat = _) rfl (toNat_add_wordOfByte s.I (s.getV x))

/-! ## Storing (R274, R275) -/

/-- FX33 within memory stores the three digits at I (R274). -/
theorem exec_ldBV_ok {x : Reg} {s : State} (h : s.I.toNat + 2 ≤ 4095) :
    exec (.ldBV x) s = .next ((s.writeBytes s.I.toNat (bcdDigits (s.getV x))).advance.report .executed) := by
  have hlen : (bcdDigits (s.getV x)).length = 3 := rfl
  rw [exec, execLdBV, State.writeRange_ok (by omega)]
  rfl

theorem toNat_tensDigit (v : Byte) : (v / 10 % 10).toNat = v.toNat / 10 % 10 := by
  rw [BitVec.toNat_umod, BitVec.toNat_udiv]
  rfl

/-- Settles O41: the byte read at I + k is the k-th digit. -/
theorem decimalDigitsAreStored : Obligations.DecimalDigitsAreStored := by
  intro x s hend
  have hread (k : Nat) (hk : k < 3) := s.readByte_writeBytes_getElem s.I.toNat (bcdDigits (s.getV x)) k hk
  refine ⟨_, exec_ldBV_ok hend, ?hundreds, ?tens, ?ones, rfl, rfl,
    EffectOf.frame (i := .ldBV x) ⟨by omega, rfl⟩⟩
  case hundreds => exact (congrArg BitVec.toNat (hread 0 (by decide))).trans BitVec.toNat_udiv
  case tens => exact (congrArg BitVec.toNat (hread 1 (by decide))).trans (toNat_tensDigit (s.getV x))
  case ones => exact (congrArg BitVec.toNat (hread 2 (by decide))).trans BitVec.toNat_umod

/-- Settles O42: the stored block is read back register by register. -/
theorem registersAreStoredInclusive : Obligations.RegistersAreStoredInclusive :=
  fun x s hend =>
    ⟨_, exec_storeRegs_ok hend, fun _ hk => s.readByte_writeBytes_regBlock s.I.toNat hk, rfl, rfl,
      EffectOf.frame (i := .storeRegs x) ⟨by omega, rfl⟩⟩

/-! ## Loading (R276) -/

theorem State.readRange_ok {s : State} {base n : Nat} (h : base + n ≤ 4096) :
    s.readRange base n = .ok (s.readBytes base n) := by
  rw [State.readRange, checkRange_ok (.inr h)]
  rfl

/-- FX65 within memory loads V0 to V[X] from I (R276). -/
theorem exec_loadRegs_ok {x : Reg} {s : State} (h : s.I.toNat + x.toNat ≤ 4095) :
    exec (.loadRegs x) s =
      .next ((s.setRegBlock (s.readBytes s.I.toNat (x.toNat + 1))).advance.report .executed) := by
  rw [exec, execLoadRegs, blockSize, State.readRange_ok (by omega)]
  rfl

/-- A register within a loaded block takes its byte (R276). -/
theorem State.getV_setRegBlock_of_lt (s : State) {bs : List Byte} {q : Reg} (hq : q.toNat < bs.length) :
    (s.setRegBlock bs).getV q = bs[q.toNat] := by
  simp only [State.getV, State.setRegBlock_V, loadBlock_getElem, Nat.sub_zero]
  exact dif_pos ⟨Nat.zero_le _, by omega⟩

/-- A register within a block loaded from memory takes the byte at its own distance from the base (R276). -/
theorem State.getV_setRegBlock_readBytes (s : State) (a : Nat) {x k : Reg} (hk : k.toNat ≤ x.toNat) :
    (s.setRegBlock (s.readBytes a (x.toNat + 1))).getV k = s.readByte (a + k.toNat) := by
  have hlen := s.readBytes_length a (x.toNat + 1)
  rw [State.getV_setRegBlock_of_lt s (by omega), State.readBytes_getElem]

/-- A register past a block loaded from memory keeps its value (R276). -/
theorem State.getV_setRegBlock_readBytes_of_lt (s : State) (a : Nat) {x k : Reg} (hk : x.toNat < k.toNat) :
    (s.setRegBlock (s.readBytes a (x.toNat + 1))).getV k = s.getV k := by
  have hlen := s.readBytes_length a (x.toNat + 1)
  exact s.getV_setRegBlock_of_le (by omega)

/-- Settles O43: each register is within the loaded block or past it. -/
theorem registersAreLoadedInclusive : Obligations.RegistersAreLoadedInclusive :=
  fun x s hend =>
    ⟨_, exec_loadRegs_ok hend, fun _ hk => s.getV_setRegBlock_readBytes s.I.toNat hk,
      fun _ hk => s.getV_setRegBlock_readBytes_of_lt s.I.toNat hk, rfl, rfl,
      EffectOf.frame (i := .loadRegs x) ⟨by omega, rfl⟩⟩

/-! ## Loading what was stored (R275, R276) -/

/-- A byte read depends on memory and the parameters only (R82). -/
theorem State.readByte_congr {s t : State} (hmem : s.mem = t.mem) (hcfg : s.cfg = t.cfg) (a : Nat) :
    s.readByte a = t.readByte a := by
  rw [State.readByte, State.readByte, hmem, hcfg]

/-- Settles O45: a register in the block is loaded from the byte that holds it, and a later one was never changed. -/
theorem storeThenLoadRestoresRegisters : Obligations.StoreThenLoadRestoresRegisters := by
  intro x s t u hend hexec hmem hcfg hI hlater
  obtain ⟨t', hexec', hstored, -, -, hframe⟩ := registersAreStoredInclusive x s hend
  obtain rfl : t' = t := Host.Outcome.next.inj (hexec'.symm.trans hexec)
  have hIs : u.I = s.I := hI.trans (hframe.I List.not_mem_nil)
  obtain ⟨v, hload, hloaded, hkept, -, hout, -⟩ := registersAreLoadedInclusive x u (hIs ▸ hend)
  refine ⟨v, hload, State.V_ext fun k => ?_, hout⟩
  obtain hk | hk := le_or_gt k.toNat x.toNat
  · calc v.getV k
      _ = u.readByte (s.I.toNat + k.toNat) := hIs ▸ hloaded k hk
      _ = t'.readByte (s.I.toNat + k.toNat) := State.readByte_congr hmem hcfg _
      _ = s.getV k := hstored k hk
  · calc v.getV k
      _ = u.getV k := hkept k hk
      _ = t'.getV k := hlater k hk
      _ = s.getV k := hframe.regs k List.not_mem_nil

end Sys2Proof.Machine

/-! # Display, keys and timers (R300 to R308) -/

namespace Sys2Proof.Machine

/-! ## Drawing as one XOR (R301)

A draw goes bit by bit and row by row. `Toggles` says what any part of it does, and no cell is lit by two bits, so that
two parts in turn are one XOR with what either lights. -/

/-- From the display and hit flag `d` to `e`: every cell is XORed with whether `lit` lights it, and a hit is noted when
a lit cell was set in `d`. -/
structure Toggles (lit : Fin 64 → Fin 32 → Bool) (d e : Display × Bool) : Prop where
  cell : ∀ px py, e.1.cell px py = (d.1.cell px py ^^ lit px py)
  hit : e.2 = true ↔ d.2 = true ∨ ∃ px py, d.1.cell px py = true ∧ lit px py = true

/-- Nothing lit, nothing changed. -/
theorem Toggles.of_unlit {lit : Fin 64 → Fin 32 → Bool} (h : ∀ px py, lit px py = false) (d : Display × Bool) :
    Toggles lit d d := by
  constructor <;> simp [h]

/-- Two parts that light no cell in common: the second finds the cells it lights as they were before the first. -/
theorem Toggles.trans {l m lit : Fin 64 → Fin 32 → Bool} {d e f : Display × Bool} (hl : Toggles l d e)
    (hm : Toggles m e f) (hlit : ∀ px py, lit px py = (l px py || m px py))
    (hdisj : ∀ px py, m px py = true → l px py = false) : Toggles lit d f where
  cell px py := by
    rw [hm.cell, hl.cell, hlit]
    cases hpq : m px py with
    | false => simp
    | true => simp [hdisj px py hpq]
  hit := by
    have hkept (px py) (hpq : m px py = true) : e.1.cell px py = d.1.cell px py := by
      rw [hl.cell, hdisj px py hpq, Bool.xor_false]
    have hsecond : (∃ px py, e.1.cell px py = true ∧ m px py = true) ↔
        ∃ px py, d.1.cell px py = true ∧ m px py = true :=
      exists₂_congr fun px py => and_congr_left fun hpq => by rw [hkept px py hpq]
    simp only [hm.hit, hl.hit, hsecond, hlit, Bool.or_eq_true, and_or_left, exists_or, or_assoc]

/-! ## One bit, one row, the whole sprite (R301, D17, D20) -/

/-- The cell that the bit at column c of a sprite byte lights, if the bit is set. -/
def bitLights (x y : Nat) (b : Byte) (c : Nat) (px : Fin 64) (py : Fin 32) : Bool :=
  b.getLsbD (7 - c) && (x + c) % 64 == px.val && y % 32 == py.val

/-- Drawing the bit at column c of a sprite byte, as `drawRow` does. -/
def drawBit (x y : Nat) (b : Byte) (d : Display × Bool) (c : Nat) : Display × Bool :=
  if b.getLsbD (7 - c) then plot (x + c) y d else d

theorem drawRow_eq_foldl_drawBit (x y : Nat) (b : Byte) (d : Display × Bool) :
    drawRow x y b d = (List.range 8).foldl (drawBit x y b) d := rfl

theorem drawBit_toggles (x y : Nat) (b : Byte) (d : Display × Bool) (c : Nat) :
    Toggles (bitLights x y b c) d (drawBit x y b d c) := by
  by_cases hb : b.getLsbD (7 - c) = true
  · have hlit (px py) : bitLights x y b c px py = true ↔ Fin.ofNat 32 y = py ∧ Fin.ofNat 64 (x + c) = px := by
      simp [bitLights, hb, Fin.ext_iff, and_comm]
    rw [drawBit, if_pos hb]
    constructor
    case cell =>
      intro px py
      rw [plot_fst, Display.cell_flip]
      split
      next h =>
        obtain ⟨rfl, rfl⟩ := h
        rw [(hlit _ _).mpr ⟨rfl, rfl⟩, Bool.xor_true]
      next h => simp [Bool.eq_false_iff.mpr (mt (hlit px py).mp h)]
    case hit => simp [plot_snd, hlit]
  · rw [drawBit, if_neg hb]
    exact Toggles.of_unlit (fun _ _ => by simp [bitLights, hb]) d

/-- The cells that the first n columns of a sprite byte light. -/
def rowLights (x y : Nat) (b : Byte) (n : Nat) (px : Fin 64) (py : Fin 32) : Bool :=
  (List.range n).any fun c => bitLights x y b c px py

/-- Eight columns in a row of 64 cells are eight cells (D20). -/
theorem rowLights_eq_false_of_bitLights {x y : Nat} {b : Byte} {n : Nat} (hn : n < 8) {px : Fin 64} {py : Fin 32}
    (h : bitLights x y b n px py = true) : rowLights x y b n px py = false := by
  simp only [bitLights, rowLights, Bool.and_eq_true, beq_iff_eq, List.any_eq_false, List.mem_range] at h ⊢
  omega

/-- The first n columns of a sprite byte, by induction on n. -/
theorem foldl_drawBit_toggles (x y : Nat) (b : Byte) (d : Display × Bool) (n : Nat) (hn : n ≤ 8) :
    Toggles (rowLights x y b n) d ((List.range n).foldl (drawBit x y b) d) := by
  induction n with
  | zero => exact Toggles.of_unlit (fun _ _ => rfl) d
  | succ n ih =>
    rw [List.range_succ, List.foldl_append]
    exact (ih (by omega)).trans (drawBit_toggles x y b _ n) (fun px py => by simp [rowLights, List.range_succ])
      fun _ _ => rowLights_eq_false_of_bitLights (by omega)

theorem drawRow_toggles (x y : Nat) (b : Byte) (d : Display × Bool) :
    Toggles (rowLights x y b 8) d (drawRow x y b d) :=
  drawRow_eq_foldl_drawBit x y b d ▸ foldl_drawBit_toggles x y b d 8 le_rfl

/-- A sprite lights what its first byte lights and what the rest lights one row further down. -/
theorem spriteLights_cons (x y : Nat) (b : Byte) (bs : List Byte) (px : Fin 64) (py : Fin 32) :
    spriteLights x y (b :: bs) px py = (rowLights x y b 8 px py || spriteLights x (y + 1) bs px py) := by
  simp [spriteLights, rowLights, bitLights, List.range_succ_eq_map, Function.comp_def, Nat.add_assoc, Nat.add_comm 1]

theorem row_of_rowLights {x y : Nat} {b : Byte} {n : Nat} {px : Fin 64} {py : Fin 32}
    (h : rowLights x y b n px py = true) : y % 32 = py.val := by
  obtain ⟨c, -, hc⟩ := List.any_eq_true.mp h
  simp only [bitLights, Bool.and_eq_true, beq_iff_eq] at hc
  exact hc.2

theorem row_of_spriteLights {x y : Nat} {bs : List Byte} {px : Fin 64} {py : Fin 32}
    (h : spriteLights x y bs px py = true) : ∃ r < bs.length, (y + r) % 32 = py.val := by
  obtain ⟨r, hr, hrow⟩ := List.any_eq_true.mp h
  obtain ⟨c, -, hc⟩ := List.any_eq_true.mp hrow
  simp only [Bool.and_eq_true, beq_iff_eq] at hc
  exact ⟨r, List.mem_range.mp hr, hc.2⟩

/-- A sprite of at most 32 rows, by induction on its bytes: the rest of them is below the first and does not wrap round
to its row. -/
theorem drawSprite_toggles (x y : Nat) (bs : List Byte) (hlen : bs.length ≤ 32) (d : Display × Bool) :
    Toggles (spriteLights x y bs) d (drawSprite x y bs d) := by
  induction bs generalizing y d with
  | nil => exact Toggles.of_unlit (fun _ _ => rfl) d
  | cons b bs ih =>
    rw [List.length_cons] at hlen
    refine (drawRow_toggles x y b d).trans (ih (y + 1) (by omega) _) (spriteLights_cons x y b bs) fun px py hrest => ?_
    obtain ⟨r, hr, hpy⟩ := row_of_spriteLights hrest
    exact Bool.eq_false_iff.mpr fun hfirst => by
      have hy := row_of_rowLights hfirst
      omega

/-- Each pixel wraps on its own, so that it is all the same when the coordinates wrap first. -/
theorem spriteLights_mod (x y : Nat) (bs : List Byte) : spriteLights (x % 64) (y % 32) bs = spriteLights x y bs := by
  funext px py
  simp only [spriteLights, Nat.mod_add_mod]

/-! ## DRW (R301) -/

/-- DRW within memory draws the bytes at I (R301, D18). -/
theorem exec_drw_ok {x y : Reg} {n : Nibble} {s : State} (h : n ≠ 0 → s.I.toNat + n.toNat - 1 ≤ 4095) :
    exec (.drw x y n) s =
      .next ((s.drawAt (s.getV x) (s.getV y) (s.readBytes s.I.toNat n.toNat)).advance.report .executed) := by
  obtain ⟨-, hread⟩ | ⟨hn, hpast, -⟩ := s.readRange_cases s.I.toNat n.toNat
  · rw [exec, execDrw, hread]
    rfl
  · have hend := h (by rintro rfl; exact hn rfl)
    omega

/-- DRW draws at most 15 bytes, within the 32 rows of the display. -/
theorem State.drawAt_toggles (s : State) (vx vy : Byte) (a : Nat) (n : Nibble) :
    Toggles (spriteLights vx.toNat vy.toNat (s.readBytes a n.toNat)) (s.disp, false)
      (drawSprite (vx.toNat % 64) (vy.toNat % 32) (s.readBytes a n.toNat) (s.disp, false)) := by
  have hn := n.isLt
  have hlen := s.readBytes_length a n.toNat
  exact spriteLights_mod vx.toNat vy.toNat _ ▸ drawSprite_toggles _ _ _ (by omega) _

/-- A draw leaves its hit flag in VF. -/
theorem State.getV_drawAt (s : State) (vx vy : Byte) (sprite : List Byte) : (s.drawAt vx vy sprite).getV 0xF =
    flagByte (drawSprite (vx.toNat % 64) (vy.toNat % 32) sprite (s.disp, false)).2 :=
  State.getV_setV_self _ VF _

theorem flagByte_of_iff {c : Bool} {p : Prop} [Decidable p] (h : c = true ↔ p) : flagByte c = if p then 1 else 0 := by
  rw [← flagByte_decide]
  exact congrArg flagByte (Bool.eq_iff_iff.mpr (h.trans decide_eq_true_iff.symm))

theorem flagByte_eq_one {c : Bool} : flagByte c = 1 ↔ c = true := by
  cases c <;> decide

/-- Settles O48: the parts of a draw light no cell in common, and so add up to one XOR. -/
theorem drawXorsTheSprite : Obligations.DrawXorsTheSprite := by
  intro x y n s hend
  have hdraw := s.drawAt_toggles (s.getV x) (s.getV y) s.I.toNat n
  refine ⟨_, exec_drw_ok hend, hdraw.cell, ?flag, rfl, rfl,
    (Frame.refl.drawAt (.head _) (.head _) _ _ _).advance.report _⟩
  case flag =>
    exact (s.getV_drawAt ..).trans (flagByte_of_iff (hdraw.hit.trans (or_iff_right Bool.false_ne_true)))

/-- Bytes outside what may be stored are read as before, any number of them. -/
theorem Frame.readBytes {regs : List Reg} {parts : List Part} {s t : State} (h : Frame regs noBytes parts s t)
    (a n : Nat) : t.readBytes a n = s.readBytes a n :=
  List.map_congr_left fun k _ => h.bytes (a + k) not_false

/-- A cell that is lit is set after the draw exactly when it was not before. -/
theorem xor_and_lit_iff (cell lit : Bool) :
    (cell ^^ lit) = true ∧ lit = true ↔ (cell ^^ lit) = true ∧ cell = false := by
  cases cell <;> cases lit <;> decide

/-- Settles O49: the first draw leaves the place and the bytes of the sprite as they were, so that the second XORs every
cell with the same bit. -/
theorem drawingTwiceRestoresTheDisplay : Obligations.DrawingTwiceRestoresTheDisplay := by
  intro x y n s t hx hy hend hexec
  obtain ⟨t', hexec', hcell, -, -, -, hframe⟩ := drawXorsTheSprite x y n s hend
  obtain rfl : t' = t := Host.Outcome.next.inj (hexec'.symm.trans hexec)
  have hI : t'.I = s.I := hframe.I (by decide)
  obtain ⟨u, hexecu, hcellu, hflag, -⟩ := drawXorsTheSprite x y n t' (hI ▸ hend)
  rw [hI, hframe.regs x (mt List.mem_singleton.mp hx), hframe.regs y (mt List.mem_singleton.mp hy),
    hframe.readBytes] at hcellu hflag
  refine ⟨u, hexecu, Display.ext_cell fun px py => ?restored, ?flag⟩
  case restored => rw [hcellu, hcell, Bool.xor_assoc, Bool.xor_self, Bool.xor_false]
  case flag =>
    rw [hflag, ← flagByte_decide, flagByte_eq_one, decide_eq_true_iff]
    exact exists₂_congr fun px py => by rw [hcell, xor_and_lit_iff]

/-! ## Keys (R302 to R304, R306) -/

/-- An instruction whose access succeeds completes with what it does next (R157). -/
theorem commit_map_ok {α : Type} {i : Instr} {s : State} {e : Except Fault α} {g : α → State} {a : α}
    (he : e = .ok a) : commit i s (e.map g) = finish (g a) := by
  subst he
  rfl

/-- A skip on a negated condition, such as a key that is not held (R304). -/
theorem State.skipIf_not_pc (s : State) (c : Bool) :
    (s.skipIf !c).pc = if c = true then s.pc + 2 else s.pc + 4 := by
  cases c <;> rfl

/-- Settles O50, by whether V[X] names a key. -/
theorem keySkipsReadTheKey : Obligations.KeySkipsReadTheKey := by
  intro x s
  refine ⟨fun k hk => ?names, fun hpast => ?faults⟩
  case names =>
    have hkey : s.keyAt (s.getV x) = .ok s.keys[k] := by
      rw [State.keyAt_ok (hk ▸ k.isLt)]
      simp only [hk, Fin.getElem_fin]
    exact ⟨completes_of_exec_eq_skipIf (commit_map_ok hkey) rfl,
      completes_of_exec_eq_skipIf (commit_map_ok hkey) (s.skipIf_not_pc _)⟩
  case faults => exact ⟨commit_map_error (State.keyAt_error hpast), commit_map_error (State.keyAt_error hpast)⟩

/-- The keys of a step are the keys of the state it starts in (R151). -/
theorem State.lowestKey_eq (s : State) : s.lowestKey = (s.keys.toList.findIdx? id).map (BitVec.ofNat 8) := rfl

/-- A key that is held while no lower one is, is the lowest (R306). -/
theorem State.lowestKey_of_lowest {s : State} {k : Fin 16} (hk : s.keys[k] = true)
    (hlow : ∀ j : Fin 16, j < k → s.keys[j] = false) : s.lowestKey = some (BitVec.ofNat 8 k.val) := by
  have hfind : s.keys.toList.findIdx? id = some k.val :=
    List.findIdx?_eq_some_iff_getElem.mpr
      ⟨by simp, by simpa using hk, fun j hj => by simpa using hlow ⟨j, by omega⟩ hj⟩
  rw [State.lowestKey_eq, hfind, Option.map_some]

theorem State.lowestKey_of_none_held {s : State} (h : ∀ k : Fin 16, s.keys[k] = false) : s.lowestKey = none := by
  have hfind : s.keys.toList.findIdx? id = none := by
    refine List.findIdx?_eq_none_iff.mpr fun b hb => ?_
    obtain ⟨k, hk, rfl⟩ := List.getElem_of_mem hb
    simpa using h ⟨k, by simpa using hk⟩
  rw [State.lowestKey_eq, hfind, Option.map_none]

theorem toNat_ofNat_key (k : Fin 16) : (BitVec.ofNat 8 k.val).toNat = k.val :=
  Nat.mod_eq_of_lt (by omega)

/-- Settles O51, by the lowest held key, if one is held. -/
theorem waitForKeyTakesTheLowest : Obligations.WaitForKeyTakesTheLowest := by
  intro x s
  refine ⟨fun k hk hlow => ?stores, fun hnone => ?waits⟩
  case stores =>
    exact completes_of_exec_eq_setV (P := fun v => v.toNat = k.val)
      (exec_ldVK_of_some (State.lowestKey_of_lowest hk hlow)) (toNat_ofNat_key k)
  case waits => exact ⟨_, exec_ldVK_of_none (State.lowestKey_of_none_held hnone), rfl⟩

/-! ## CLS and the timers (R300, R305, R307, R308) -/

/-- Settles O47: the blank display has no cell on. -/
theorem clearTurnsEveryCellOff : Obligations.ClearTurnsEveryCellOff :=
  fun _ => ⟨_, rfl, Display.cell_blank, rfl, rfl, (Frame.refl.setDisp (.head _) _).advance.report _⟩

/-- The signal is on exactly when the sound timer is not 0 (R411). -/
theorem soundOn_iff (s : State) : soundOn s = true ↔ s.ST ≠ 0 := bne_iff_ne

/-- Settles O52: each form is one write of one register or timer. -/
theorem timerInstructionsMoveTheirTimer : Obligations.TimerInstructionsMoveTheirTimer :=
  fun _ s =>
    ⟨completes_of_exec_eq_setV (P := fun v => v = s.DT) rfl rfl,
     ⟨_, rfl, rfl, rfl, rfl, (Frame.refl.setDT (.head _) _).advance.report _⟩,
     ⟨_, rfl, rfl, soundOn_iff _, rfl, rfl, (Frame.refl.setST (.head _) _).advance.report _⟩⟩

end Sys2Proof.Machine

/-! # Faults, timers and keys as the host sees them (R400 to R413) -/

namespace Sys2Proof.Machine

/-! ## The fault record (R402) -/

/-- Settles O18, by the operation: a step's record has the word it fetched, and no other operation touches the memory or
pc of a halted machine. -/
theorem faultRecordDescribesTheMachine : Obligations.FaultRecordDescribesTheMachine :=
  fun _ _ _ hinv hrec happly => apply_keeps_recordDescribes hinv hrec happly

/-! ## The one fault of each checked operation (R400, R404) -/

theorem State.code_of_pop_error {s : State} {f : Fault} (h : s.pop = .error f) : f.code = 3 := by
  obtain hst | ⟨rest, a, hst⟩ := s.stack.eq_nil_or_concat
  · cases (State.pop_error hst).symm.trans h
    rfl
  · rw [List.concat_eq_append] at hst
    cases (State.pop_ok hst).symm.trans h

theorem State.code_of_push_error {s : State} {a : Word} {f : Fault} (h : s.push a = .error f) : f.code = 4 := by
  by_cases hlim : s.cfg.stackLimit = some s.stack.length
  · cases (State.push_error a hlim).symm.trans h
    rfl
  · cases (State.push_ok a hlim).symm.trans h

theorem State.code_of_readRange_error {s : State} {base n : Nat} {f : Fault} (h : s.readRange base n = .error f) :
    f.code = 2 := by
  obtain ⟨-, hread⟩ | ⟨-, -, hread⟩ := s.readRange_cases base n
  · cases hread.symm.trans h
  · cases hread.symm.trans h
    rfl

theorem State.code_of_writeRange_error {s : State} {base : Nat} {bs : List Byte} {f : Fault}
    (h : s.writeRange base bs = .error f) : f.code = 2 := by
  obtain ⟨-, hwrite⟩ | ⟨-, -, hwrite⟩ := s.writeRange_cases base bs
  · cases hwrite.symm.trans h
  · cases hwrite.symm.trans h
    rfl

theorem State.code_of_keyAt_error {s : State} {v : Byte} {f : Fault} (h : s.keyAt v = .error f) : f.code = 5 := by
  obtain hkey | hkey := lt_or_ge v.toNat 16
  · cases (State.keyAt_ok hkey).symm.trans h
  · cases (State.keyAt_error hkey).symm.trans h
    rfl

/-! ## The faults of each instruction (R404) -/

/-- The outcome of a fault entry is the fault (R403). -/
theorem FaultedWith.outcome {s t : State} {f : Fault} {word : Option Word} (h : FaultedWith s f word t) :
    t.outcome = some (.fault ⟨f, s.pc, word⟩) := by
  rw [h]

/-- The fault of an instruction that commits is that of its one checked operation (R157, R404). -/
theorem error_of_commit_faulted {α : Type} {i : Instr} {s t : State} {e : Except Fault α} {g : α → State}
    {f : Fault} {word : Option Word} (h : commit i s (e.map g) = .next t) (hfault : FaultedWith s f word t) :
    e = .error f := by
  have hout := hfault.outcome
  cases e with
  | ok a => cases h; cases hout
  | error f' => cases h; cases hout; rfl

/-- Settles O12: eight forms commit what follows from one checked operation, and the others complete or wait. -/
theorem faultsOfEachInstruction : Obligations.FaultsOfEachInstruction := by
  intro i s t f word hexec hfault
  cases i
  case ret => exact .inl ⟨State.code_of_pop_error (error_of_commit_faulted hexec hfault), rfl⟩
  case call nnn => exact .inr (.inl ⟨State.code_of_push_error (error_of_commit_faulted hexec hfault), nnn, rfl⟩)
  case ldBV x | storeRegs x =>
    have hcode := State.code_of_writeRange_error (error_of_commit_faulted hexec hfault)
    simp [hcode]
  case loadRegs x | drw x y n =>
    have hcode := State.code_of_readRange_error (error_of_commit_faulted hexec hfault)
    simp [hcode]
  case skp x | sknp x =>
    have hcode := State.code_of_keyAt_error (error_of_commit_faulted hexec hfault)
    simp [hcode]
  case ldVK x =>
    cases hlow : s.lowestKey with
    | none =>
      cases (exec_ldVK_of_none hlow).symm.trans hexec
      cases hfault.outcome
    | some k =>
      cases (exec_ldVK_of_some hlow).symm.trans hexec
      cases hfault.outcome
  all_goals cases hexec; cases hfault.outcome

/-! ## A step that halts (R402, R403) -/

/-- No instruction raises the fetch fault: only the fetch does (R404). -/
theorem code_ne_one_of_exec {i : Instr} {s t : State} {f : Fault} {word : Option Word} (hexec : exec i s = .next t)
    (hfault : FaultedWith s f word t) : f.code ≠ 1 := by
  have hcodes := faultsOfEachInstruction i s t f word hexec hfault
  omega

/-- Settles O13, by the cases of a step: it halts a ready machine by a fetch fault or by an instruction's fault. -/
theorem faultingStepKeepsTheState : Obligations.FaultingStepKeepsTheState := by
  rintro s t ⟨-, hrun⟩ hstep hhalted
  obtain ⟨-, ⟨rec, hhalt, -⟩ | ⟨-, -, rfl⟩ | ⟨-, -, w, hfetch, hword⟩⟩ := step_cases hstep
  · cases hrun.symm.trans hhalt
  · exact ⟨_, none, s.takeFault_eq _ none, by simp [Fault.code], by simp⟩
  · obtain ⟨e, -, rfl⟩ | ⟨i, hdecode, hexec⟩ := hword
    · exact absurd hrun hhalted
    · obtain ⟨f, rfl⟩ | heffect := exec_cases hexec
      · have hfault := s.takeFault_eq f (some (encode i))
        refine ⟨f, _, hfault, by simp [code_ne_one_of_exec hexec hfault], ?fetched⟩
        case fetched =>
          rintro _ ⟨⟩
          rw [hfetch, encode_of_decodeWord hdecode]
      · exact absurd (heffect.frame.halt.trans hrun) hhalted

/-! ## The timer tick (R410) -/

theorem toNat_tickDown (v : Byte) : (tickDown v).toNat = v.toNat - 1 := by
  by_cases h : v = 0
  · rw [h]
    rfl
  · rw [tickDown, if_neg h]
    bv_omega

/-- Settles O54. -/
theorem tickLowersEachTimer : Obligations.TickLowersEachTimer :=
  fun s => ⟨toNat_tickDown s.DT, toNat_tickDown s.ST, rfl⟩

/-! ## Setting a key (R413) -/

theorem setKey_ok {index : Nat} (h : index < 16) (pressed : Bool) (s : State) :
    setKey index pressed s = (s.setKeys (s.keys.set index pressed), .ok) := dif_pos h

theorem setKey_rejected {index : Nat} (h : index > 15) (pressed : Bool) (s : State) :
    setKey index pressed s = (s, .rejected) := dif_neg (by omega)

/-- Settles O55, by whether the index names a key. -/
theorem setKeyChangesOneKey : Obligations.SetKeyChangesOneKey := by
  intro s index pressed
  refine ⟨fun hkey => ?sets, fun hpast => setKey_rejected hpast pressed s⟩
  case sets =>
    have hlt : index < 16 := by omega
    refine ⟨_, setKey_ok hlt pressed s, rfl, fun k => ?_⟩
    simp only [State.setKeys_keys, Fin.getElem_fin, Vector.getElem_set, eq_comm]

end Sys2Proof.Machine

/-! # Construction, the load and the first step (R500 to R502) -/

namespace Sys2Proof.Machine

/-! ## Construction (R500) -/

/-- Settles O15: nothing is listed in memory, the stack is empty, and there is no record. -/
theorem invariantHoldsAtConstruction : Obligations.InvariantHoldsAtConstruction :=
  fun cfg => ⟨.construct cfg, .of_halt_none rfl⟩

/-- At construction every address reads as the reset content. -/
theorem State.readByte_construct (cfg : Config) (a : Nat) : (State.construct cfg).readByte a = resetByte cfg.font a := rfl

theorem resetByte_of_font (font : Font) (k : Fin 80) : resetByte font k.val = font[k] := dif_pos k.isLt

theorem resetByte_past_font (font : Font) {a : Nat} (h : 0x050 ≤ a) : resetByte font a = 0x00 := dif_neg (by omega)

theorem State.getV_construct (cfg : Config) (r : Reg) : (State.construct cfg).getV r = 0x00 :=
  Vector.getElem_replicate r.isLt

theorem State.keys_construct (cfg : Config) (k : Fin 16) : (State.construct cfg).keys[k] = false :=
  Vector.getElem_replicate k.isLt

/-- Settles O53: memory reads as the reset content, the vectors are constant, and the other fields are written out. -/
theorem constructionValues : Obligations.ConstructionValues := by
  intro cfg
  refine ⟨fun k => ?font, fun a ha _ => ?zeroed, State.getV_construct cfg, rfl, rfl, rfl, rfl, rfl,
    Display.cell_blank, State.keys_construct cfg, rfl, rfl⟩
  case font => rw [State.readByte_construct, resetByte_of_font]
  case zeroed => rw [State.readByte_construct, resetByte_past_font _ ha]

/-! ## Loading a program (R502, R415) -/

theorem loadProgram_ok {s : State} {b : List Byte} (hphase : s.phase = .constructed) (hfit : b.length ≤ 3584) :
    loadProgram b s = .next ((s.writeBytes 0x200 b).setPhase .loaded, .ok) := by
  have hfit : ¬ b.length > maxProgramSize := Nat.not_lt.mpr hfit
  simp only [loadProgram, hphase, if_neg hfit, programBase]

theorem loadProgram_tooLong {s : State} {b : List Byte} (hphase : s.phase = .constructed) (hlong : b.length > 3584) :
    loadProgram b s = .next (s, .loadError) := by
  have hlong : b.length > maxProgramSize := hlong
  simp only [loadProgram, hphase, if_pos hlong]

theorem loadProgram_of_loaded {s : State} (b : List Byte) (hphase : s.phase = .loaded) :
    loadProgram b s = .refused .loadAfterLoad := by
  simp only [loadProgram, hphase]

/-- Settles O56, by the phase and the image's length: what is read after the load is what the load wrote. -/
theorem loadCopiesTheImage : Obligations.LoadCopiesTheImage := by
  intro s b
  refine ⟨fun hphase hfit => ?fits, loadProgram_tooLong, loadProgram_of_loaded b⟩
  case fits =>
    exact ⟨_, loadProgram_ok hphase hfit, s.readByte_writeBytes_getElem 0x200 b,
      s.readByte_writeBytes_of_notMem 0x200 b, rfl⟩

/-! ## The first step (R501) -/

theorem apply_load_ok {s : State} {b : List Byte} (hphase : s.phase = .constructed) (hfit : b.length ≤ 3584) :
    HostOp.apply (.load b) s = .next ((s.writeBytes 0x200 b).setPhase .loaded) := by
  rw [HostOp.apply, loadProgram_ok hphase hfit]

theorem runSchedule_cons_next {op : HostOp} {ops : List HostOp} {s t : State} (h : op.apply s = .next t) :
    runSchedule (op :: ops) s = runSchedule ops t := by
  rw [runSchedule, h]

/-- A schedule of one operation answers what the operation answers. -/
theorem runSchedule_singleton (op : HostOp) (s : State) : runSchedule [op] s = op.apply s := by
  rw [runSchedule]
  cases op.apply s <;> rfl

/-- Settles O57: the loaded machine is ready at 0x200, where it reads the image's first two bytes. -/
theorem firstInstructionIsAtTheEntryPoint : Obligations.FirstInstructionIsAtTheEntryPoint := by
  intro cfg hi lo rest i hfit hdecode
  have hload := apply_load_ok (s := State.construct cfg) rfl hfit
  refine ⟨_, hload, rfl, ?step⟩
  case step =>
    have hbyte := (State.construct cfg).readByte_writeBytes_getElem 0x200 (hi :: lo :: rest)
    have hhi := hbyte 0 (by simp)
    have hlo := hbyte 1 (by simp)
    rw [runSchedule_cons_next hload, runSchedule_singleton]
    refine stepRunsTheDecodedInstruction _ i ⟨rfl, rfl⟩ (by decide : 0x200 ≤ 4094) ?_
    exact (congrArg₂ (fun a b => decodeBytes [a, b]) hhi hlo).trans hdecode

end Sys2Proof.Machine
